-- ==== Sys2Proof/Word.lean ====
section
/-! DEFINITION. The bit fields of the D5700 instruction word (spec/00_scope.md R6, spec/30_encoding.md R90).

General registers and store words are mathematical integers (`Int`, R7, R20, R31, R32); only what the spec gives a
width to is a bit vector. -/

namespace Sys2Proof

/-- The 16-bit instruction word, bit 15 most significant (R6, R90). -/
abbrev Word := BitVec 16

/-- One hexadecimal digit of the word: a register field, DRAW's row or column, or the opcode (R90). -/
abbrev Nibble := BitVec 4

/-- A literal byte, the countdown register T, a keyboard answer, a byte of the program binary (R25, R70, R90). -/
abbrev Byte := BitVec 8

/-- A 12-bit literal or address, and the address register A (R23, R90). -/
abbrev Addr := BitVec 12

end Sys2Proof
end

