-- ==== Sys2Proof/Syntax.lean ====
section
/-! DEFINITION. The instructions: one constructor for each row of spec/opcode_table.json (R91), the zero word's HALT
row among them (R43, R93). A field an instruction ignores is no part of it (R95, R96). -/

namespace Sys2Proof

/-- The D5700 instruction set. Register operands are the 4-bit fields as encoded: indices 8 to 15 decode, and fault
when the instruction executes (R94). -/
inductive Instr where
  /-- HALT: the zero word (R43, R93, R99). -/
  | halt
  /-- STORE rX, imm8 (R100). -/
  | store (x : Nibble) (imm : Byte)
  /-- ADD rX, rY, rZ: rZ := rX + rY (R101). -/
  | add (x y z : Nibble)
  /-- SUBTRACT rX, rY, rZ: rZ := rX − rY (R102). -/
  | subtract (x y z : Nibble)
  /-- READ rX (R120). -/
  | read (x : Nibble)
  /-- WRITE rX (R121). -/
  | write (x : Nibble)
  /-- JUMP addr12 (R140). -/
  | jump (target : Addr)
  /-- READ_KEYBOARD rX (R160). -/
  | readKeyboard (x : Nibble)
  /-- SWITCH_MEMORY (R122). -/
  | switchMemory
  /-- SKIP_EQUAL rX, rY (R141). -/
  | skipEqual (x y : Nibble)
  /-- SKIP_NOT_EQUAL rX, rY (R142). -/
  | skipNotEqual (x y : Nibble)
  /-- SET_A imm12 (R123). -/
  | setA (imm : Addr)
  /-- SET_T imm8 (R180). -/
  | setT (imm : Byte)
  /-- READ_T rX (R181). -/
  | readT (x : Nibble)
  /-- CONVERT_TO_BASE_TEN rX (R124). -/
  | convertToBaseTen (x : Nibble)
  /-- CONVERT_BYTE_TO_ASCII rX, rY (R103). -/
  | convertByteToAscii (x y : Nibble)
  /-- DRAW rX, row, col (R161). -/
  | draw (x row col : Nibble)
  deriving DecidableEq, Repr

end Sys2Proof
end

