-- ==== Sys2Proof/WellFormed.lean ====
section
/-! DEFINITION. Which instructions have an encoding: all but STORE r0, 0x00, whose bits are the zero word (R93). -/

namespace Sys2Proof

/-- `i` has an encoding. The operand types already bound every field, so the one check left is R93's: "STORE r0 with
byte 0x00 has no encoding". -/
def Instr.wellFormed : Instr → Bool
  | .store x imm => !(x == 0 && imm == 0)
  | .halt | .add _ _ _ | .subtract _ _ _ | .read _ | .write _ | .jump _ | .readKeyboard _ | .switchMemory
  | .skipEqual _ _ | .skipNotEqual _ _ | .setA _ | .setT _ | .readT _ | .convertToBaseTen _
  | .convertByteToAscii _ _ | .draw _ _ _ => true

end Sys2Proof
end

