-- ==== Sys2Proof/Decode.lean ====
section
/-! DEFINITION. The dispatcher (R90 to R96): from a fetched store word to an instruction or a rejection by name, and
the encoder written from the same map. -/

namespace Sys2Proof

/-- Digit 1, `w[15:12]` (R6, R90). -/
def Word.op (w : Word) : Nibble := w.extractLsb' 12 4

/-- Digit 2, `w[11:8]` (R6, R90). -/
def Word.x (w : Word) : Nibble := w.extractLsb' 8 4

/-- Digit 3, `w[7:4]` (R6, R90). -/
def Word.y (w : Word) : Nibble := w.extractLsb' 4 4

/-- Digit 4, `w[3:0]` (R6, R90). -/
def Word.z (w : Word) : Nibble := w.extractLsb' 0 4

/-- The 8-bit literal `w[7:0]` (R6, R90). -/
def Word.yz (w : Word) : Byte := w.extractLsb' 0 8

/-- The 12-bit literal `w[11:0]` (R6, R90). -/
def Word.xyz (w : Word) : Addr := w.extractLsb' 0 12

/-- The dispatcher on a nonzero 16-bit word: the leading digit selects the opcode (R91), operands are cut out by
position (R96), unused digits are ignored (R95). All sixteen digits are mapped; the last arm is digit F. -/
def dispatch (w : Word) : Instr :=
  match w.op.toNat with
  | 0x0 => .store w.x w.yz
  | 0x1 => .add w.x w.y w.z
  | 0x2 => .subtract w.x w.y w.z
  | 0x3 => .read w.x
  | 0x4 => .write w.x
  | 0x5 => .jump w.xyz
  | 0x6 => .readKeyboard w.x
  | 0x7 => .switchMemory
  | 0x8 => .skipEqual w.x w.y
  | 0x9 => .skipNotEqual w.x w.y
  | 0xA => .setA w.xyz
  | 0xB => .setT w.yz
  | 0xC => .readT w.x
  | 0xD => .convertToBaseTen w.x
  | 0xE => .convertByteToAscii w.x w.y
  | _   => .draw w.x w.y w.z

/-- A 16-bit word as an instruction: the zero word is the halt marker and takes precedence over STORE (R43, R93,
spec/90_conflicts.md C6). -/
def decode (w : Word) : Instr := if w = 0 then .halt else dispatch w

/-- Why a store word is rejected. -/
inductive DecodeError where
  /-- The integer is outside 0..0xFFFF, so it is no instruction word (R92). -/
  | unknownInstruction (w : Int)
  deriving DecidableEq, Repr

/-- A fetched store word, any integer, as an instruction, or rejected by name (R92). -/
def decodeStoreWord (w : Int) : Except DecodeError Instr :=
  if 0 ≤ w ∧ w ≤ 0xFFFF then .ok (decode (BitVec.ofNat 16 w.toNat)) else .error (.unknownInstruction w)

/-- The encoding of each instruction (R91), with 0 in the ignored digits, as the spec's assembler writes them (R98). -/
def encode : Instr → Word
  | .halt => 0
  | .store x imm => 0x0#4 ++ x ++ imm
  | .add x y z => 0x1#4 ++ x ++ y ++ z
  | .subtract x y z => 0x2#4 ++ x ++ y ++ z
  | .read x => 0x3#4 ++ x ++ 0#8
  | .write x => 0x4#4 ++ x ++ 0#8
  | .jump target => 0x5#4 ++ target
  | .readKeyboard x => 0x6#4 ++ x ++ 0#8
  | .switchMemory => 0x7000
  | .skipEqual x y => 0x8#4 ++ x ++ y ++ 0#4
  | .skipNotEqual x y => 0x9#4 ++ x ++ y ++ 0#4
  | .setA imm => 0xA#4 ++ imm
  | .setT imm => 0xB#4 ++ 0#4 ++ imm
  | .readT x => 0xC#4 ++ x ++ 0#8
  | .convertToBaseTen x => 0xD#4 ++ x ++ 0#8
  | .convertByteToAscii x y => 0xE#4 ++ x ++ y ++ 0#4
  | .draw x row col => 0xF#4 ++ x ++ row ++ col

/-- The integer that the low `nbits` bits of `w` spell, every bit above them 0: the store word the host's opcode-table
numbering stands for (one instruction is one store word, R61, R90). -/
def tableWord (nbits w : Nat) : Int := ((w % 2 ^ nbits : Nat) : Int)

/-- The decoder's answer on a word numbered as spec/opcode_table.json numbers it. -/
def decodeTableWord (nbits w : Nat) : Option Instr :=
  match decodeStoreWord (tableWord nbits w) with
  | .ok i => some i
  | .error _ => none

end Sys2Proof
end

