-- ==== Sys2Proof/Config.lean ====
section
/-! DEFINITION. What is fixed for a run, and the free values (draws) the spec takes from outside the CORE
(spec/00_scope.md R4, spec/10_state.md R37). -/

namespace Sys2Proof

/-- The launch configuration and the parameters left open (R4, R36): held in State, never changed by a step (R27, R37). -/
structure CoreConfig where
  /-- The program store's writability flag (R27, decision D12). -/
  romWritable : Bool
  /-- TIMER_TICK_ATOMIC (R4, R215, R216, decision D8): true, a tick is one step; false, it is split in two. -/
  timerTickAtomic : Bool
  /-- REG_WIDTH (R4, decision D2): none, the normative unbounded integers; some n, a finite realisation whose r0..r7
  and store words are n bits wide. -/
  regWidth : Option Nat
  deriving DecidableEq, Repr

/-- The commands the host may send at any time (R219, R227). -/
inductive HostCommand where
  | timerStop
  | timerStart
  deriving DecidableEq, Repr, Inhabited

/-- Who takes the next step of the interleaving (R1, R2). -/
inductive Turn where
  | engine
  | timer
  | host (c : HostCommand)
  deriving DecidableEq, Repr, Inhabited

namespace Config

/-- FREE VALUE: the interleaving of Engine, Timer and host commands (R2, R77, R217, decision D9). Turn `n` of a run
goes to `turn n`; nothing constrains it. -/
opaque turn : Nat → Turn

/-- FREE VALUE: the 8-bit value of the host's `n`-th unscripted keyboard answer (R160, decision D7). -/
opaque kbdValue : Nat → Byte

/-- FREE VALUE: `baseTenWide`, the three integers the `n`-th CONVERT_TO_BASE_TEN of a source outside 0..999 writes
(R124, decision D6). -/
opaque baseTenWide : Nat → Int × Int × Int

end Config

end Sys2Proof
end

