-- ==== Sys2Proof/Machine/State.lean ====
section
/-! DEFINITION. The state of the CORE as plain data (spec/10_state.md R20 to R37), the events it emits (R225), the
reasons it halts (R28, R201) and its reset (R240). -/

namespace Sys2Proof.Machine

/-- A host-level stop of the model. The spec's four fatal faults are no such stop: each is an architectural transition
to HALTED (R200) and therefore a NEXT state. -/
inductive Fault where
  /-- A register or store word is outside the range of a finite REG_WIDTH: such a realisation's model "must fault (not
  wrap) on leaving the range" (decision D2). Raised by the Engine's step alone, never where REG_WIDTH is unbounded, as
  after reset; safe. -/
  | widthExceeded
  deriving DecidableEq, Repr

/-- A host-level refusal of the model. -/
inductive Refusal where
  /-- An instruction whose arm in Machine/Dispatch.lean has no meaning yet. No arm raises it now; safe. -/
  | notModelled (mnemonic : String)
  deriving DecidableEq, Repr

/-- The eight general registers, unbounded integers (R20). -/
structure Regs where
  r0 : Int
  r1 : Int
  r2 : Int
  r3 : Int
  r4 : Int
  r5 : Int
  r6 : Int
  r7 : Int
  deriving DecidableEq, Repr

/-- A store or the display: (index, word) pairs with indices strictly rising, no word equal to what an unlisted index
reads as (0 in the stores, 32 in the display, R31 to R33). Words are integers (R31), so a cell is not a `Host.Cell`. -/
abbrev Memory := List (Nat × Int)

/-- The operand fields of the instruction word that can name a register (R6, R21). -/
inductive OperandField where
  | X
  | Y
  | Z
  deriving DecidableEq, Repr

/-- The instructions whose operand values have a fatal range (R201, code 3). -/
inductive RangedInstr where
  | convertByteToAscii
  | draw
  deriving DecidableEq, Repr

/-- The operand an OPERAND_OUT_OF_RANGE report names (R103, R161, R201). -/
inductive RangedOperand where
  | source (r : Fin 8)
  | row
  | column
  deriving DecidableEq, Repr

/-- The fatal faults with the info each records (R201). -/
inductive FatalFault where
  /-- Code 1: the fetched word is no instruction word (R92). -/
  | unknownInstruction (w : Int)
  /-- Code 2: an odd JUMP target (R140). -/
  | invalidJumpTarget (address : Addr)
  /-- Code 3: a source value, row or column outside its range (R103, R161). -/
  | operandOutOfRange (instr : RangedInstr) (operand : RangedOperand) (value : Int)
  /-- Code 4: a register field holding 8..15 (R21). -/
  | invalidRegister (field : OperandField) (index : Nibble)
  deriving DecidableEq, Repr

/-- The three reasons the Engine halts for (R28, R203). -/
inductive HaltReason where
  | zeroWord
  | pcExhausted
  | fault (f : FatalFault)
  deriving DecidableEq, Repr

/-- The run state of the Engine (R28). -/
inductive RunState where
  | running
  | halted (r : HaltReason)
  deriving DecidableEq, Repr

/-- The output events (R35, R225). -/
inductive Event where
  /-- An instruction is dispatched: its pc and word (R226). -/
  | log (pc : Nat) (w : Int)
  /-- READ_KEYBOARD asks the host for a line (R160, R220). -/
  | prompt
  /-- A fatal fault: pc, word, kind and info (R200, R201). -/
  | faultReport (pc : Nat) (w : Int) (f : FatalFault)
  /-- A snapshot of the 64 display cells in linear order (R222, R223). -/
  | render (cells : List Int)
  deriving DecidableEq, Repr

/-- THE MODEL'S OWN: the draws of R37. A script fixes the first ones; past its end each draw is the free value of
Config at the count of the unscripted draws made so far. A statement over every state covers every script. -/
structure Draws where
  /-- The next turns of the interleaving, in order. -/
  turns : List Turn
  /-- The host's next keyboard answers, in order, after its conversion to 8 bits (R160, R220). -/
  keys : List Byte
  /-- How many turns were drawn from `Config.turn`. -/
  turnCount : Nat
  /-- How many answers were drawn from `Config.kbdValue`. -/
  keyCount : Nat
  /-- How many triples were drawn from `Config.baseTenWide`. -/
  wideCount : Nat
  deriving DecidableEq, Repr

/-- The whole state (R36), with the launch configuration, the latch of a split tick (R216) and the model's own draws. -/
structure State where
  /-- r0..r7 (R20). -/
  regs : Regs
  /-- The address register (R23). -/
  A : Addr
  /-- The mode register: 0 data store, 1 program store (R24). -/
  M : BitVec 1
  /-- The countdown register (R25). -/
  T : Byte
  /-- The program counter, a natural number of words (R29). -/
  pc : Nat
  /-- The program store (R31). -/
  prog : Memory
  /-- The data store (R32). -/
  data : Memory
  /-- The display cells by linear index row·8 + column (R33). -/
  display : Memory
  /-- RUNNING or HALTED(reason) (R28). -/
  run : RunState
  /-- The Timer runs (R34). -/
  timerOn : Bool
  /-- Ticks since the last periodic render, modulo 60 (R34). -/
  tickCount : Fin 60
  /-- The T that TickRead of a split tick latched, while its TickWrite is pending (R216). -/
  tickLatch : Option Byte
  /-- The output trace in emission order (R35). -/
  out : List Event
  /-- The launch configuration (R36). -/
  cfg : CoreConfig
  /-- The model's own: the draws (R37). -/
  draws : Draws
  deriving DecidableEq, Repr

/-- Right after reset, before any load (R240). The draws are unscripted: every choice is a free value. -/
def State.reset : State where
  regs := ⟨0, 0, 0, 0, 0, 0, 0, 0⟩
  A := 0
  M := 0
  T := 0
  pc := 0
  prog := []
  data := []
  display := []
  run := .running
  timerOn := true
  tickCount := 0
  tickLatch := none
  out := []
  cfg := { romWritable := false, timerTickAtomic := true, regWidth := none }
  draws := { turns := [], keys := [], turnCount := 0, keyCount := 0, wideCount := 0 }

end Sys2Proof.Machine
end

