-- ==== Sys2Proof/Machine/Ops.lean ====
section
/-! DEFINITION. The named operations over registers, stores, display, output, draws and pc, and the ONE operation that
takes a fatal fault (R200). The spec has no return from a fault: a fault is terminal (R206). -/

namespace Sys2Proof.Machine

/-! ### Cells -/

/-- The word at index `a`; an unlisted index reads as `dflt`. -/
def Memory.read (dflt : Int) : Memory → Nat → Int
  | [], _ => dflt
  | c :: m, a => if c.1 = a then c.2 else Memory.read dflt m a

/-- `m` with no word listed at index `a`. -/
def Memory.erase (a : Nat) : Memory → Memory
  | [] => []
  | c :: m => if c.1 = a then Memory.erase a m else c :: Memory.erase a m

/-- `m` with `v` listed at index `a`, before the first higher index. -/
def Memory.insert (a : Nat) (v : Int) : Memory → Memory
  | [] => [(a, v)]
  | c :: m => if a < c.1 then (a, v) :: c :: m else c :: Memory.insert a v m

/-- `m` with `v` at index `a`, in canonical form: `dflt` is never listed. -/
def Memory.write (dflt : Int) (m : Memory) (a : Nat) (v : Int) : Memory :=
  if v = dflt then Memory.erase a m else Memory.insert a v (Memory.erase a m)

/-- The canonical form: indices from `lo` up and below `size`, strictly rising, and no word equal to `dflt`. -/
def Memory.wfFrom (size : Nat) (dflt : Int) : Nat → Memory → Bool
  | _, [] => true
  | lo, c :: m => decide (lo ≤ c.1) && decide (c.1 < size) && decide (c.2 ≠ dflt) && Memory.wfFrom size dflt (c.1 + 1) m

/-- The memory is in canonical form and lists only indices below `size`. -/
def Memory.wf (size : Nat) (dflt : Int) (m : Memory) : Bool := Memory.wfFrom size dflt 0 m

/-! ### Registers -/

/-- The value of register `k` (R20). -/
def Regs.get (g : Regs) (k : Fin 8) : Int :=
  match k with
  | 0 => g.r0 | 1 => g.r1 | 2 => g.r2 | 3 => g.r3 | 4 => g.r4 | 5 => g.r5 | 6 => g.r6 | 7 => g.r7

/-- The register file with `v` in register `k` (R20). -/
def Regs.set (g : Regs) (k : Fin 8) (v : Int) : Regs :=
  match k with
  | 0 => { g with r0 := v } | 1 => { g with r1 := v } | 2 => { g with r2 := v } | 3 => { g with r3 := v }
  | 4 => { g with r4 := v } | 5 => { g with r5 := v } | 6 => { g with r6 := v } | 7 => { g with r7 := v }

/-- `x[k]` for a register that exists (R21). -/
def State.reg (s : State) (k : Fin 8) : Int := s.regs.get k

/-! ### Single-field updates -/

/-- `x[k] <- v` for a register that exists (R21). -/
def State.setReg (s : State) (k : Fin 8) (v : Int) : State := { s with regs := s.regs.set k v }
/-- `A <- a` (R23). -/
def State.setA (s : State) (a : Addr) : State := { s with A := a }
/-- `M <- m` (R24). -/
def State.setM (s : State) (m : BitVec 1) : State := { s with M := m }
/-- `T <- t`, one indivisible write (R25, R72). -/
def State.setT (s : State) (t : Byte) : State := { s with T := t }
/-- `pc <- a` (R29). -/
def State.setPc (s : State) (a : Nat) : State := { s with pc := a }
/-- The program store's cells (R31). -/
def State.setProg (s : State) (m : Memory) : State := { s with prog := m }
/-- The data store's cells (R32). -/
def State.setData (s : State) (m : Memory) : State := { s with data := m }
/-- The display's cells (R33). -/
def State.setDisplay (s : State) (m : Memory) : State := { s with display := m }
/-- The run state (R28). -/
def State.setRun (s : State) (r : RunState) : State := { s with run := r }
/-- `timerOn <- b` (R34). -/
def State.setTimerOn (s : State) (b : Bool) : State := { s with timerOn := b }
/-- `tickCount <- n` (R34). -/
def State.setTickCount (s : State) (n : Fin 60) : State := { s with tickCount := n }
/-- The latch of a split tick (R216). -/
def State.setTickLatch (s : State) (t : Option Byte) : State := { s with tickLatch := t }
/-- `emit e`: append an output event (R225). -/
def State.emit (s : State) (e : Event) : State := { s with out := s.out ++ [e] }
/-- The launch configuration, before the run (R27). -/
def State.setCfg (s : State) (c : CoreConfig) : State := { s with cfg := c }
/-- The model's own draws. -/
def State.setDraws (s : State) (d : Draws) : State := { s with draws := d }

/-! ### Stores and display -/

/-- ProgRead(a): 0 outside 0..4095 (R62). -/
def State.progRead (s : State) (a : Int) : Int :=
  if 0 ≤ a ∧ a ≤ 4095 then Memory.read 0 s.prog a.toNat else 0

/-- ProgWrite(a, v) with its success bit: gated by the writability flag and the range (R63). -/
def State.progWrite (s : State) (a v : Int) : State × Bool :=
  if s.cfg.romWritable = true ∧ 0 ≤ a ∧ a ≤ 4095 then (s.setProg (Memory.write 0 s.prog a.toNat v), true)
  else (s, false)

/-- DataRead(a): 0 outside 0..4095 (R64). -/
def State.dataRead (s : State) (a : Int) : Int :=
  if 0 ≤ a ∧ a ≤ 4095 then Memory.read 0 s.data a.toNat else 0

/-- DataWrite(a, v): dropped outside 0..4095 (R65). -/
def State.dataWrite (s : State) (a v : Int) : State :=
  if 0 ≤ a ∧ a ≤ 4095 then s.setData (Memory.write 0 s.data a.toNat v) else s

/-- MemRead(a, 1): the store M selects (R66). -/
def State.memRead (s : State) (a : Int) : Int := if s.M = 1 then s.progRead a else s.dataRead a

/-- MemWrite(a, 1, v): the store M selects; the success bit is discarded (R67). -/
def State.memWrite (s : State) (a v : Int) : State :=
  if s.M = 1 then (s.progWrite a v).1 else s.dataWrite a v

/-- DisplayRead(col, row): 0 outside 0..7 × 0..7 (R69). -/
def State.displayRead (s : State) (col row : Int) : Int :=
  if 0 ≤ col ∧ col ≤ 7 ∧ 0 ≤ row ∧ row ≤ 7 then Memory.read 32 s.display (row * 8 + col).toNat else 0

/-- DisplayWrite(col, row, v): dropped outside 0..7 × 0..7 (R69). -/
def State.displayWrite (s : State) (col row v : Int) : State :=
  if 0 ≤ col ∧ col ≤ 7 ∧ 0 ≤ row ∧ row ≤ 7 then s.setDisplay (Memory.write 32 s.display (row * 8 + col).toNat v)
  else s

/-- The 64 display cells in linear order, one snapshot (R33, R78, R222). -/
def State.cells (s : State) : List Int := (List.range 64).map (Memory.read 32 s.display)

/-! ### The width of a finite realisation -/

/-- `n` bits hold `v` in two's complement: −2^(n−1) ≤ v < 2^(n−1), and 0 alone where n = 0 (decision D2). -/
def fitsBits (n : Nat) (v : Int) : Bool := decide (-((2 ^ n : Nat) : Int) ≤ 2 * v ∧ 2 * v < ((2 ^ n : Nat) : Int))

/-- `n` bits hold every register. -/
def Regs.fits (n : Nat) (g : Regs) : Bool :=
  [g.r0, g.r1, g.r2, g.r3, g.r4, g.r5, g.r6, g.r7].all (fitsBits n)

/-- `n` bits hold every word listed. -/
def Memory.fits (n : Nat) (m : Memory) : Bool := m.all fun c => fitsBits n c.2

/-- Every register and store word is in the range of REG_WIDTH: always where it is unbounded (decision D2). -/
def State.fits (s : State) : Bool :=
  match s.cfg.regWidth with
  | none => true
  | some n => s.regs.fits n && s.prog.fits n && s.data.fits n

/-- The outcome `o` of a transition of `s` as a finite realisation has it: a value outside the range, before the
transition or after it, is a fault and never wraps (decision D2). -/
def State.guardWidth (s : State) (o : Host.Outcome State Fault Refusal) : Host.Outcome State Fault Refusal :=
  if s.fits = true then
    match o with
    | .next t => if t.fits = true then .next t else .fault .widthExceeded
    | .fault f => .fault f
    | .refused r => .refused r
  else .fault .widthExceeded

/-! ### Halting and faults -/

/-- Entry to HALTED: the run state records the reason and the final render is emitted once (R47). -/
def State.enterHalted (s : State) (r : HaltReason) : State :=
  (s.setRun (.halted r)).emit (.render s.cells)

/-- The spec's code number of a fault kind (R201). -/
def FatalFault.code : FatalFault → Nat
  | .unknownInstruction _ => 1
  | .invalidJumpTarget _ => 2
  | .operandOutOfRange _ _ _ => 3
  | .invalidRegister _ _ => 4

/-- TAKING A FATAL FAULT (R200): nothing is written, pc stays at the faulting word, the report is emitted with pc and
the word there, the run state becomes HALTED(FAULT), the final render is emitted. -/
def State.takeFault (s : State) (f : FatalFault) : State :=
  (s.emit (.faultReport s.pc (s.progRead s.pc) f)).enterHalted (.fault f)

/-- `raise f`: the instruction is abandoned with no effect of its own and the fault is taken (R8, R200). -/
def raise (f : FatalFault) (s : State) : Host.Outcome State Fault Refusal := .next (s.takeFault f)

/-! ### Program-counter update -/

/-- What the perform phase returns to the sequencer (R40, R46). -/
inductive PcUpdate where
  /-- The uniform +1 and `extra` more: 0, or 1 for a taken skip (R42). -/
  | seq (extra : Nat)
  /-- JUMP's target, with no further advance (R42, R140). -/
  | jump (target : Nat)
  deriving DecidableEq, Repr

/-- The pc an update leads to, an integer sum with no wrap-around (R30, R42). -/
def PcUpdate.target (u : PcUpdate) (pc : Nat) : Nat :=
  match u with
  | .seq extra => pc + 1 + extra
  | .jump t => t

/-- The pc moves to `a`; at 4096 or beyond the Engine halts PC_EXHAUSTED in the same step (R44). -/
def State.moveTo (s : State) (a : Nat) : State :=
  if 4096 ≤ a then (s.setPc a).enterHalted .pcExhausted else s.setPc a

/-- The advance phase: the end of every instruction that did not fault (R40). -/
def finish (u : PcUpdate) (s : State) : Host.Outcome State Fault Refusal := .next (s.moveTo (u.target s.pc))

/-! ### Draws -/

/-- Whose turn it is: the script's next turn, or a free one (R2, R217). -/
def State.nextTurn (s : State) : Turn :=
  match s.draws.turns with
  | u :: _ => u
  | [] => Config.turn s.draws.turnCount

/-- The turn is consumed. -/
def State.tookTurn (s : State) : State :=
  match s.draws.turns with
  | _ :: us => s.setDraws { s.draws with turns := us }
  | [] => s.setDraws { s.draws with turnCount := s.draws.turnCount + 1 }

/-- The host's next keyboard answer, a value in 0..255: scripted, or free (R160, D7). -/
def State.nextKey (s : State) : Byte :=
  match s.draws.keys with
  | v :: _ => v
  | [] => Config.kbdValue s.draws.keyCount

/-- The answer is consumed. -/
def State.tookKey (s : State) : State :=
  match s.draws.keys with
  | _ :: vs => s.setDraws { s.draws with keys := vs }
  | [] => s.setDraws { s.draws with keyCount := s.draws.keyCount + 1 }

/-- The next `baseTenWide` triple, any three integers (R124, D6). -/
def State.nextWide (s : State) : Int × Int × Int := Config.baseTenWide s.draws.wideCount

/-- The triple is consumed. -/
def State.tookWide (s : State) : State := s.setDraws { s.draws with wideCount := s.draws.wideCount + 1 }

end Sys2Proof.Machine
end

