-- ==== Sys2Proof/Machine/Flags.lean ====
section
/-! DEFINITION. The CORE has no flags (R26). The two conditions that instructions test are computed here, and no
instruction records a result of them. -/

namespace Sys2Proof.Machine

/-- SKIP_EQUAL's condition: exact integer equality (R141). -/
def conditionEqual (a b : Int) : Bool := decide (a = b)

/-- SKIP_NOT_EQUAL's condition (R142). -/
def conditionNotEqual (a b : Int) : Bool := decide (a ≠ b)

/-- The pc update of a skip: one extra step when the condition holds (R42). -/
def skipIf (c : Bool) : PcUpdate := if c then .seq 1 else .seq 0

end Sys2Proof.Machine
end

