-- ==== Sys2Proof/Machine/Operands.lean ====
section
/-! DEFINITION. Operand forms: checked register fields (R21), zero-extended literals (R96), the address A (R75), and
the two conversions of operand values (R103, R124). -/

namespace Sys2Proof.Machine

/-- A register field: register `i` for 0..7, and INVALID_REGISTER(field, i) for 8..15, before the instruction writes
anything (R21). The continuation receives the register; nesting these checks the fields in order (R104). -/
def withReg (f : OperandField) (i : Nibble) (s : State) (k : Fin 8 → Host.Outcome State Fault Refusal) :
    Host.Outcome State Fault Refusal :=
  if h : i.toNat < 8 then k ⟨i.toNat, h⟩ else raise (.invalidRegister f i) s

/-- zext: the non-negative integer a field denotes, never sign-extended (R7, R96). -/
def zext {n : Nat} (v : BitVec n) : Int := (v.toNat : Int)

/-- The store address A + k, an integer sum with no 12-bit wrap (R75). -/
def State.addr (s : State) (k : Int) : Int := zext s.A + k

/-- The ASCII code of hex digit `v` in 0..15: '0'..'9' or 'A'..'F' (R103). -/
def asciiOfDigit (v : Int) : Int := if v ≤ 9 then 48 + v else 55 + v

/-- The hundreds, tens and ones digits of `v` in 0..999 (R124). -/
def decimalDigits (v : Int) : Int × Int × Int := (v / 100, (v / 10) % 10, v % 10)

/-- The three values CONVERT_TO_BASE_TEN writes: the digits, or a draw outside 0..999 (R124). -/
def State.baseTen (s : State) (v : Int) : Int × Int × Int :=
  if 0 ≤ v ∧ v ≤ 999 then decimalDigits v else s.nextWide

/-- The draw CONVERT_TO_BASE_TEN consumes: one outside 0..999, none inside (R124). -/
def State.tookBaseTen (s : State) (v : Int) : State :=
  if 0 ≤ v ∧ v ≤ 999 then s else s.tookWide

end Sys2Proof.Machine
end

