-- ==== Sys2Proof/Machine/Control.lean ====
section
/-! DEFINITION. HALT, the zero word (spec/10_state.md R43), and JUMP, SKIP_EQUAL, SKIP_NOT_EQUAL
(spec/42_control.md). -/

namespace Sys2Proof.Machine

/-- HALT, the zero word (R43): HALTED(ZERO_WORD), pc unchanged, the final render (R47). -/
def execHalt (s : State) : Host.Outcome State Fault Refusal := .next (s.enterHalted .zeroWord)

/-- JUMP (R140): an odd target faults. -/
def execJump (target : Addr) (s : State) : Host.Outcome State Fault Refusal :=
  if target.toNat % 2 = 1 then raise (.invalidJumpTarget target) s else finish (.jump target.toNat) s

/-- SKIP_EQUAL (R141). -/
def execSkipEqual (x y : Nibble) (s : State) : Host.Outcome State Fault Refusal :=
  withReg .X x s fun rx => withReg .Y y s fun ry => finish (skipIf (conditionEqual (s.reg rx) (s.reg ry))) s

/-- SKIP_NOT_EQUAL (R142). -/
def execSkipNotEqual (x y : Nibble) (s : State) : Host.Outcome State Fault Refusal :=
  withReg .X x s fun rx => withReg .Y y s fun ry => finish (skipIf (conditionNotEqual (s.reg rx) (s.reg ry))) s

end Sys2Proof.Machine
end

