-- ==== Sys2Proof/Machine/Countdown.lean ====
section
/-! DEFINITION. SET_T and READ_T (spec/44_timer.md): each makes one indivisible access to T. -/

namespace Sys2Proof.Machine

/-- SET_T (R180). -/
def execSetT (imm : Byte) (s : State) : Host.Outcome State Fault Refusal := finish (.seq 0) (s.setT imm)

/-- READ_T (R181). -/
def execReadT (x : Nibble) (s : State) : Host.Outcome State Fault Refusal :=
  withReg .X x s fun rx => finish (.seq 0) (s.setReg rx (zext s.T))

end Sys2Proof.Machine
end

