-- ==== Sys2Proof/Machine/InputOutput.lean ====
section
/-! DEFINITION. READ_KEYBOARD and DRAW (spec/43_io.md). -/

namespace Sys2Proof.Machine

/-- READ_KEYBOARD (R160): the register is checked, the prompt is emitted, the host's 8-bit answer is stored. The step
exists only once the host has answered: until then the interleaving gives the Engine no turn (R221). -/
def execReadKeyboard (x : Nibble) (s : State) : Host.Outcome State Fault Refusal :=
  withReg .X x s fun rx => finish (.seq 0) (((s.emit .prompt).tookKey).setReg rx (zext s.nextKey))

/-- DRAW (R161): the register field, then the value, the row and the column are checked before the write; digit 3 is
the row and digit 4 the column (decision D4). -/
def execDraw (x row col : Nibble) (s : State) : Host.Outcome State Fault Refusal :=
  withReg .X x s fun rx =>
    if s.reg rx < 0 ∨ 127 < s.reg rx then raise (.operandOutOfRange .draw (.source rx) (s.reg rx)) s
    else if 7 < row.toNat then raise (.operandOutOfRange .draw .row (zext row)) s
    else if 7 < col.toNat then raise (.operandOutOfRange .draw .column (zext col)) s
    else finish (.seq 0) (s.displayWrite (zext col) (zext row) (s.reg rx))

end Sys2Proof.Machine
end

