-- ==== Sys2Proof/Machine/MemoryAccess.lean ====
section
/-! DEFINITION. READ, WRITE, SWITCH_MEMORY, SET_A, CONVERT_TO_BASE_TEN (spec/41_memory_access.md). -/

namespace Sys2Proof.Machine

/-- READ (R120). -/
def execRead (x : Nibble) (s : State) : Host.Outcome State Fault Refusal :=
  withReg .X x s fun rx => finish (.seq 0) (s.setReg rx (s.memRead (s.addr 0)))

/-- WRITE (R121): the write's success bit is discarded. -/
def execWrite (x : Nibble) (s : State) : Host.Outcome State Fault Refusal :=
  withReg .X x s fun rx => finish (.seq 0) (s.memWrite (s.addr 0) (s.reg rx))

/-- SWITCH_MEMORY (R122). -/
def execSwitchMemory (s : State) : Host.Outcome State Fault Refusal := finish (.seq 0) (s.setM (1 - s.M))

/-- SET_A (R123). -/
def execSetA (imm : Addr) (s : State) : Host.Outcome State Fault Refusal := finish (.seq 0) (s.setA imm)

/-- CONVERT_TO_BASE_TEN (R124): three writes at A, A + 1, A + 2 of the store M selects, in that order. -/
def execConvertToBaseTen (x : Nibble) (s : State) : Host.Outcome State Fault Refusal :=
  withReg .X x s fun rx =>
    let d := s.baseTen (s.reg rx)
    finish (.seq 0)
      ((((s.tookBaseTen (s.reg rx)).memWrite (s.addr 0) d.1).memWrite (s.addr 1) d.2.1).memWrite (s.addr 2) d.2.2)

end Sys2Proof.Machine
end

