-- ==== Sys2Proof/Machine/RegisterAlu.lean ====
section
/-! DEFINITION. STORE, ADD, SUBTRACT, CONVERT_BYTE_TO_ASCII (spec/40_register_alu.md). -/

namespace Sys2Proof.Machine

/-- STORE (R100). -/
def execStore (x : Nibble) (imm : Byte) (s : State) : Host.Outcome State Fault Refusal :=
  withReg .X x s fun rx => finish (.seq 0) (s.setReg rx (zext imm))

/-- ADD (R101): both sources are read before the write. -/
def execAdd (x y z : Nibble) (s : State) : Host.Outcome State Fault Refusal :=
  withReg .X x s fun rx => withReg .Y y s fun ry => withReg .Z z s fun rz =>
    finish (.seq 0) (s.setReg rz (s.reg rx + s.reg ry))

/-- SUBTRACT (R102): both sources are read before the write. -/
def execSubtract (x y z : Nibble) (s : State) : Host.Outcome State Fault Refusal :=
  withReg .X x s fun rx => withReg .Y y s fun ry => withReg .Z z s fun rz =>
    finish (.seq 0) (s.setReg rz (s.reg rx - s.reg ry))

/-- CONVERT_BYTE_TO_ASCII (R103): the register fields are checked before the value (R104). -/
def execConvertByteToAscii (x y : Nibble) (s : State) : Host.Outcome State Fault Refusal :=
  withReg .X x s fun rx => withReg .Y y s fun ry =>
    if s.reg rx < 0 ∨ 15 < s.reg rx then
      raise (.operandOutOfRange .convertByteToAscii (.source rx) (s.reg rx)) s
    else finish (.seq 0) (s.setReg ry (asciiOfDigit (s.reg rx)))

end Sys2Proof.Machine
end

