-- ==== Sys2Proof/Machine/Dispatch.lean ====
section
/-! DEFINITION. The perform and advance phases of each instruction, one arm per constructor of Instr (R40, R48). -/

namespace Sys2Proof.Machine

def exec (i : Instr) (s : State) : Host.Outcome State Fault Refusal :=
  match i with
  | .halt => Sys2Proof.Machine.execHalt s
  | .store x imm => Sys2Proof.Machine.execStore x imm s
  | .add x y z => Sys2Proof.Machine.execAdd x y z s
  | .subtract x y z => Sys2Proof.Machine.execSubtract x y z s
  | .read x => Sys2Proof.Machine.execRead x s
  | .write x => Sys2Proof.Machine.execWrite x s
  | .jump target => Sys2Proof.Machine.execJump target s
  | .readKeyboard x => Sys2Proof.Machine.execReadKeyboard x s
  | .switchMemory => Sys2Proof.Machine.execSwitchMemory s
  | .skipEqual x y => Sys2Proof.Machine.execSkipEqual x y s
  | .skipNotEqual x y => Sys2Proof.Machine.execSkipNotEqual x y s
  | .setA imm => Sys2Proof.Machine.execSetA imm s
  | .setT imm => Sys2Proof.Machine.execSetT imm s
  | .readT x => Sys2Proof.Machine.execReadT x s
  | .convertToBaseTen x => Sys2Proof.Machine.execConvertToBaseTen x s
  | .convertByteToAscii x y => Sys2Proof.Machine.execConvertByteToAscii x y s
  | .draw x row col => Sys2Proof.Machine.execDraw x row col s

end Sys2Proof.Machine
end

