-- ==== Sys2Proof/Machine/Engine.lean ====
section
/-! DEFINITION. The Engine's step (spec/10_state.md R40 to R48): fetch, the zero-word and unknown-instruction checks in
that order (R205), the log, then the instruction. -/

namespace Sys2Proof.Machine

/-- The word at pc, always from the program store, whatever M (R41). -/
def State.fetch (s : State) : Int := s.progRead s.pc

/-- The Engine's transition on unbounded integers, the normative semantics (R40, decision D2). -/
def engineRun (s : State) : Host.Outcome State Fault Refusal :=
  if s.fetch = 0 then exec .halt s
  else match decodeStoreWord s.fetch with
    | .error (.unknownInstruction w) => raise (.unknownInstruction w) s
    | .ok i => exec i (s.emit (.log s.pc s.fetch))

/-- One Engine step while RUNNING, within REG_WIDTH (decision D2); a halted Engine has no step and its turn passes (R40,
R45). -/
def engineStep (s : State) : Host.Outcome State Fault Refusal :=
  if s.run = .running then s.guardWidth (engineRun s) else .next s

/-- `s` with store word `w` where the Engine fetches next, the Engine running, and the next turn the Engine's. -/
def State.placeWord (s : State) (w : Int) : State :=
  ((if s.pc ≤ 4095 then s.setProg (Memory.write 0 s.prog s.pc w) else s).setRun .running).setDraws
    { s.draws with turns := .engine :: s.draws.turns }

end Sys2Proof.Machine
end

