-- ==== Sys2Proof/Machine/HostPort.lean ====
section
/-! DEFINITION. The host interface (spec/60_exceptions.md R219 to R227, spec/70_reset_and_hazards.md R242, R243): load,
configuration, timer control, and the host's reference keyboard conversion. -/

namespace Sys2Proof.Machine

/-- TimerStop and TimerStart, at any time between steps (R219). -/
def hostStep (c : HostCommand) (s : State) : State :=
  match c with
  | .timerStop => s.setTimerOn false
  | .timerStart => s.setTimerOn true

/-- The launch configuration's writability flag, before the run (R27, R227). -/
def State.configure (s : State) (romWritable : Bool) : State := s.setCfg { s.cfg with romWritable := romWritable }

/-- One 16-bit word from its high and low byte (R70, R242). -/
def bytePair (hi lo : Byte) : Int := (hi.toNat : Int) * 256 + (lo.toNat : Int)

/-- The load from slot `k` up: whatever the writability flag, words past slot 4095 dropped, a trailing odd byte ignored
(R242, decision D19). -/
def loadFrom (k : Nat) : List Byte → Memory → Memory
  | hi :: lo :: rest, m => loadFrom (k + 1) rest (if k ≤ 4095 then Memory.write 0 m k (bytePair hi lo) else m)
  | _, m => m

/-- Load(b), from slot 0 (R242). -/
def State.load (s : State) (b : List Byte) : State := s.setProg (loadFrom 0 b s.prog)

/-- The start of a session with the launch configuration and parameters `c`: reset, configuration, load (R243, R4). -/
def session (c : CoreConfig) (b : List Byte) : State := (State.reset.setCfg c).load b

/-- The value of a hexadecimal digit, either letter case (decision D7's reference conversion). -/
def hexValue (c : Char) : Option Nat :=
  if 48 ≤ c.toNat ∧ c.toNat ≤ 57 then some (c.toNat - 48)
  else if 65 ≤ c.toNat ∧ c.toNat ≤ 70 then some (c.toNat - 55)
  else if 97 ≤ c.toNat ∧ c.toNat ≤ 102 then some (c.toNat - 87)
  else none

/-- The REFERENCE conversion of a keyboard line, the host's and not normative (decision D7): non-hex characters are
dropped; nothing left gives 0; else the first two digits, or the one. -/
def kbdReference (line : List Char) : Byte :=
  match line.filterMap hexValue with
  | [] => 0
  | [d] => BitVec.ofNat 8 d
  | d :: e :: _ => BitVec.ofNat 8 (d * 16 + e)

/-- The host will answer the prompt after those already scripted with value `v` (R160, R227). -/
def State.answerKey (s : State) (v : Byte) : State := s.setDraws { s.draws with keys := s.draws.keys ++ [v] }

/-- The host will answer with a line, under the reference conversion (R160, decision D7). -/
def State.answerLine (s : State) (line : List Char) : State := s.answerKey (kbdReference line)

/-- The script of the interleaving is extended by the turns `us` (R2). -/
def State.schedule (s : State) (us : List Turn) : State := s.setDraws { s.draws with turns := s.draws.turns ++ us }

/-- The character a render shows for a cell's code: printable codes 32..126 as themselves, all others '?' (R224). -/
def renderChar (code : Int) : Char := if 32 ≤ code ∧ code ≤ 126 then Char.ofNat code.toNat else '?'

end Sys2Proof.Machine
end

