-- ==== Sys2Proof/Machine/Timer.lean ====
section
/-! DEFINITION. The Timer agent (spec/60_exceptions.md R215 to R219). -/

namespace Sys2Proof.Machine

/-- The decrement of a tick: T − 1 while T > 0 (R215). -/
def decrementT (t : Byte) : Byte := if t = 0 then 0 else t - 1

/-- The tick is counted, and every 60th emits a render (R215). -/
def State.countTick (s : State) : State :=
  if s.tickCount + 1 = 0 then (s.setTickCount (s.tickCount + 1)).emit (.render s.cells)
  else s.setTickCount (s.tickCount + 1)

/-- An atomic tick (R215). -/
def State.tick (s : State) : State := (s.setT (decrementT s.T)).countTick

/-- TickRead of a split tick: latch T (R216). -/
def State.tickRead (s : State) : State := s.setTickLatch (some s.T)

/-- TickWrite of a split tick that latched `t`: T becomes t − 1 if t > 0, whatever was written since; then the tick is
counted (R216). -/
def State.tickWrite (s : State) (t : Byte) : State :=
  ((if t = 0 then s else s.setT (t - 1)).setTickLatch none).countTick

/-- The Timer's turn. Atomic: one tick while the Timer runs (R215). Split: a pending TickWrite completes, even after a
stop (R219); else TickRead while the Timer runs (R216). With no step enabled the turn passes. -/
def timerStep (s : State) : State :=
  if s.cfg.timerTickAtomic = true then (if s.timerOn = true then s.tick else s)
  else match s.tickLatch with
    | some t => s.tickWrite t
    | none => if s.timerOn = true then s.tickRead else s

end Sys2Proof.Machine
end

