-- ==== Sys2Proof/Machine/Step.lean ====
section
/-! DEFINITION. One step of the interleaving (R2): the agent whose turn it is moves. -/

namespace Sys2Proof.Machine

/-- One step: the turn is drawn (scripted or free, R2, R217), then the Engine, the Timer or the host acts. -/
def step (s : State) : Host.Outcome State Fault Refusal :=
  match s.nextTurn with
  | .engine => engineStep s.tookTurn
  | .timer => .next (timerStep s.tookTurn)
  | .host c => .next (hostStep c s.tookTurn)

/-- `s` with the instruction word `w` (its bits above `nbits` zero) placed where the Engine fetches next, the Engine
running and the next turn the Engine's, so that the very next step runs it. -/
def State.withFetchWord (s : State) (nbits w : Nat) : State := s.placeWord (tableWord nbits w)

end Sys2Proof.Machine
end

