-- ==== Sys2Proof/Machine/Text.lean ====
section
/-! DEFINITION. Text forms and the spec's assembler (spec/30_encoding.md R97 to R99): output formats and shorthand; no
step reads them. -/

namespace Sys2Proof.Machine

/-- A hexadecimal digit as its upper-case character (R97). -/
def digitText (d : Nibble) : Char := Char.ofNat (asciiOfDigit (zext d)).toNat

/-- A word as 4 hexadecimal digits, most significant first, leading zeros kept (R97). -/
def wordText (w : Word) : List Char := [digitText w.op, digitText w.x, digitText w.y, digitText w.z]

/-- The source's mnemonic of an instruction (R91). -/
def mnemonic : Instr → String
  | .halt => "HALT"
  | .store _ _ => "STORE"
  | .add _ _ _ => "ADD"
  | .subtract _ _ _ => "SUBTRACT"
  | .read _ => "READ"
  | .write _ => "WRITE"
  | .jump _ => "JUMP"
  | .readKeyboard _ => "READ_KEYBOARD"
  | .switchMemory => "SWITCH_MEMORY"
  | .skipEqual _ _ => "SKIP_EQUAL"
  | .skipNotEqual _ _ => "SKIP_NOT_EQUAL"
  | .setA _ => "SET_A"
  | .setT _ => "SET_T"
  | .readT _ => "READ_T"
  | .convertToBaseTen _ => "CONVERT_TO_BASE_TEN"
  | .convertByteToAscii _ _ => "CONVERT_BYTE_TO_ASCII"
  | .draw _ _ _ => "DRAW"

/-- A register operand as text (R98); fields 8..15 name no register and are written the same way. -/
def regText (r : Nibble) : String := "r" ++ toString r.toNat

/-- The operands of an instruction in field order (R98). -/
def operandTexts : Instr → List String
  | .halt | .switchMemory => []
  | .store x imm => [regText x, toString imm.toNat]
  | .add x y z | .subtract x y z => [regText x, regText y, regText z]
  | .read x | .write x | .readKeyboard x | .readT x | .convertToBaseTen x => [regText x]
  | .jump a | .setA a => [toString a.toNat]
  | .skipEqual x y | .skipNotEqual x y | .convertByteToAscii x y => [regText x, regText y]
  | .setT imm => [toString imm.toNat]
  | .draw x row col => [regText x, toString row.toNat, toString col.toNat]

/-- One line of assembly: the mnemonic, then the operands separated by commas, numbers in decimal (R98). -/
def asmText (i : Instr) : String :=
  if operandTexts i = [] then mnemonic i else mnemonic i ++ " " ++ ", ".intercalate (operandTexts i)

/-- The pseudo-instructions of the spec's assembler (R99). -/
inductive Pseudo where
  | halt
  | nop
  | clr (x : Nibble)
  deriving DecidableEq, Repr

/-- Their expansions (R99). -/
def Pseudo.expand : Pseudo → Instr
  | .halt => .halt
  | .nop => .skipNotEqual 0 0
  | .clr x => .subtract x x x

end Sys2Proof.Machine
end

