-- ==== Sys2Proof/Safety.lean ====
section
/-! DEFINITION. The vocabulary of the claims: what a transition leaves unchanged, what completing and what taking a
fault look like from outside, and the invariant of reachable states. Memory is spoken of through the reads of R62, R64
and R69 alone. -/

namespace Sys2Proof.Safety

open Sys2Proof.Machine

/-- The register field that names register `k` (R21). -/
def regField (k : Fin 8) : Nibble := BitVec.ofNat 4 k.val

/-! ### Frames -/

/-- The parts of the state a frame speaks of; pc, run state and output trace are spoken of apart. -/
inductive Part where
  | regs
  | addr
  | mode
  | countdown
  | prog
  | data
  | display
  | timer
  | config
  | draws
  deriving DecidableEq, Repr

/-- The part reads the same in `t` as in `s`: every register, every word at every address, every cell. -/
def Part.Same (s t : State) : Part → Prop
  | .regs => ∀ k, t.reg k = s.reg k
  | .addr => t.A = s.A
  | .mode => t.M = s.M
  | .countdown => t.T = s.T
  | .prog => ∀ a, t.progRead a = s.progRead a
  | .data => ∀ a, t.dataRead a = s.dataRead a
  | .display => ∀ col row, t.displayRead col row = s.displayRead col row
  | .timer => t.timerOn = s.timerOn ∧ t.tickCount = s.tickCount ∧ t.tickLatch = s.tickLatch
  | .config => t.cfg = s.cfg
  | .draws => t.draws = s.draws

/-- Every part but those listed is unchanged. -/
def Frame (changed : List Part) (s t : State) : Prop := ∀ p, p ∉ changed → p.Same s t

/-- What no part speaks of is unchanged: pc, the run state and the output trace. -/
structure SameControl (s t : State) : Prop where
  pc : t.pc = s.pc
  run : t.run = s.run
  out : t.out = s.out

/-- Register `d` holds `v` and every other register is unchanged. -/
def RegSet (d : Fin 8) (v : Int) (s t : State) : Prop := t.reg d = v ∧ ∀ k, k ≠ d → t.reg k = s.reg k

/-! ### How a step ends -/

/-- The instruction completed with pc at `a`, having emitted `evs`: the Engine goes on, or at 4096 and beyond it is
HALTED(PC_EXHAUSTED) with the final render (R42, R44, R47). -/
structure CompletedAt (a : Nat) (evs : List Event) (s t : State) : Prop where
  pc : t.pc = a
  goesOn : a < 4096 → t.run = s.run ∧ t.out = s.out ++ evs
  exhausts : 4096 ≤ a → t.run = .halted .pcExhausted ∧ t.out = s.out ++ evs ++ [.render t.cells]

/-- The fatal fault `f` was taken: pc stays, nothing else changes, the report and then the final render are emitted, the
run state records the fault (R200). -/
structure FaultTaken (f : FatalFault) (s t : State) : Prop where
  pc : t.pc = s.pc
  run : t.run = .halted (.fault f)
  out : t.out = s.out ++ [.faultReport s.pc (s.progRead s.pc) f, .render s.cells]
  frame : Frame [] s t

/-- The fault of the first field, in the order given, that holds 8..15 (R21, R104). -/
def firstBadRegister : List (OperandField × Nibble) → Option FatalFault
  | [] => none
  | (f, r) :: rest => if 8 ≤ r.toNat then some (.invalidRegister f r) else firstBadRegister rest

/-- `i`, whose register fields in field order are `fields`, takes INVALID_REGISTER on the first bad one, in every state
(R21, R94, R104). -/
def ChecksRegisters (i : Instr) (fields : List (OperandField × Nibble)) : Prop :=
  ∀ s f, firstBadRegister fields = some f → ∃ t, exec i s = .next t ∧ FaultTaken f s t

/-- The bits of a word that its opcode's instruction uses; the other bits are ignored (R91, R95). -/
def usedBits (op : Nibble) : Word :=
  match op.toNat with
  | 0x3 | 0x4 | 0x6 | 0xC | 0xD => 0xFF00
  | 0x7 => 0xF000
  | 0x8 | 0x9 | 0xE => 0xFFF0
  | 0xB => 0xF0FF
  | _ => 0xFFFF

/-- A write through M reaches its store: the data store always, the program store only when writable (R63, R65). -/
def Lands (s : State) : Prop := s.M = 0 ∨ s.cfg.romWritable = true

/-- The event is a render. -/
def isRender : Event → Bool
  | .render _ => true
  | .log _ _ | .prompt | .faultReport _ _ _ => false

/-- The state after `n` ticks (R215). -/
def ticks : Nat → State → State
  | 0, s => s
  | n + 1, s => ticks n s.tick

/-! ### The width of a finite realisation -/

/-- The integer is one of those that `n` bits hold in two's complement (decision D2). -/
def InWidth (n : Nat) (v : Int) : Prop := -((2 ^ n : Nat) : Int) ≤ 2 * v ∧ 2 * v < ((2 ^ n : Nat) : Int)

/-- Where REG_WIDTH is finite, every register and every word of both stores is in its range (R4, decision D2). -/
def WithinWidth (s : State) : Prop :=
  ∀ n, s.cfg.regWidth = some n →
    (∀ k, InWidth n (s.reg k)) ∧ (∀ a, InWidth n (s.progRead a)) ∧ (∀ a, InWidth n (s.dataRead a))

/-! ### The keyboard -/

/-- The hexadecimal digits in the order of their values, letters in upper case (decision D7). -/
def hexDigits : List Char := ['0', '1', '2', '3', '4', '5', '6', '7', '8', '9', 'A', 'B', 'C', 'D', 'E', 'F']

/-- The lower-case letters among the hexadecimal digits, from ten up (decision D7). -/
def lowerHexDigits : List Char := ['a', 'b', 'c', 'd', 'e', 'f']

/-! ### The invariant -/

/-- Where pc stands in each run state (R29, R43, R44, R200, R203). -/
def PcFits (s : State) : Prop :=
  match s.run with
  | .running => s.pc ≤ 4095
  | .halted .zeroWord => s.pc ≤ 4095 ∧ s.progRead s.pc = 0
  | .halted .pcExhausted => s.pc = 4096 ∨ s.pc = 4097
  | .halted (.fault _) => s.pc ≤ 4095 ∧ s.progRead s.pc ≠ 0

/-- What every reachable state satisfies: canonical memories within their ranges, pc where its run state says, display
codes DRAW can write, 16-bit program words while the store is unwritable, no latch while ticks are atomic. -/
structure Inv (s : State) : Prop where
  prog : Memory.wf 4096 0 s.prog = true
  data : Memory.wf 4096 0 s.data = true
  display : Memory.wf 64 32 s.display = true
  pcFits : PcFits s
  codes : ∀ c ∈ s.cells, 0 ≤ c ∧ c ≤ 127
  words : s.cfg.romWritable = false → ∀ a, 0 ≤ s.progRead a ∧ s.progRead a ≤ 0xFFFF
  latch : s.cfg.timerTickAtomic = true → s.tickLatch = none

/-! ### Runs -/

/-- The run has ended (R232). -/
def Ended (s : State) : Prop := s.run ≠ .running

/-- No fatal fault has halted the Engine (R200). -/
def NoFault (s : State) : Prop := ∀ f, s.run ≠ .halted (.fault f)

/-- The Timer's weak fairness, a PREMISE for claims that need it: past every point of the free interleaving the Timer
has a turn (R217). The model does not assume it. -/
def TimerFair : Prop := ∀ n, ∃ m, n ≤ m ∧ Config.turn m = .timer

/-- All that the Timer cannot touch is equal: everything but T, the Timer's own state and the output trace (R217). -/
structure AgreeButTimer (s t : State) : Prop where
  regs : t.regs = s.regs
  A : t.A = s.A
  M : t.M = s.M
  pc : t.pc = s.pc
  prog : t.prog = s.prog
  data : t.data = s.data
  display : t.display = s.display
  run : t.run = s.run
  cfg : t.cfg = s.cfg
  draws : t.draws = s.draws

end Sys2Proof.Safety
end

