-- ==== Sys2Proof/Certificates/Slice0/Obligations.lean ====
section
/-! DEFINITION. The statements for the provers, each formalising rules of spec/ over every state. -/

open Sys2Proof Sys2Proof.Machine Sys2Proof.Safety

/-! ### Encoding -/

/-- Words written out bit by bit from the patterns of R91, one for each opcode, decode as the spec says. -/
def Obligations.SampleWordsDecode : Prop :=
  decode 0b0000000000000000 = .halt ∧ decode 0b0000001101001000 = .store 3 0x48 ∧
  decode 0b0001000000010010 = .add 0 1 2 ∧ decode 0b0010000000010011 = .subtract 0 1 3 ∧
  decode 0b0011000111111111 = .read 1 ∧ decode 0b0100001000000000 = .write 2 ∧
  decode 0b0101111111111110 = .jump 0xFFE ∧ decode 0b0110001100000000 = .readKeyboard 3 ∧
  decode 0b0111101010111100 = .switchMemory ∧ decode 0b1000000000100000 = .skipEqual 0 2 ∧
  decode 0b1001000000010000 = .skipNotEqual 0 1 ∧ decode 0b1010000001100100 = .setA 100 ∧
  decode 0b1011111100001010 = .setT 10 ∧ decode 0b1100100000000000 = .readT 8 ∧
  decode 0b1101011100000000 = .convertToBaseTen 7 ∧ decode 0b1110001000110000 = .convertByteToAscii 2 3 ∧
  decode 0b1111001100010010 = .draw 3 1 2

/-- R91, R93, R96: decoding the encoding of any instruction that has one gives it back, at every operand value. -/
def Obligations.DecodeOfEncodeIsIdentity : Prop := ∀ i : Instr, i.wellFormed = true → decode (encode i) = i

/-- R96: re-encoding any decoded word reproduces its used fields. Which fields are ignored is decision D3 (R95); that
the ignored ones are written as 0 is the assembler's choice in R98 (decision D17); log entry 13 names both. -/
def Obligations.ReencodingReproducesTheUsedFields : Prop := ∀ w : Word, encode (decode w) = w &&& usedBits w.op

/-- R95 (decision D3): two words with the same opcode that agree on the used bits are the same instruction, whatever the ignored
digits hold. -/
def Obligations.IgnoredDigitsAreIgnored : Prop :=
  ∀ v w : Word, v &&& usedBits v.op = w &&& usedBits w.op → decode v = decode w

/-- R92 to R94: every 16-bit word decodes, to an instruction that has an encoding; the zero word and no other to HALT. -/
def Obligations.EveryWordDecodes : Prop :=
  ∀ w : Word, (decode w).wellFormed = true ∧ (decode w = .halt ↔ w = 0) ∧
    decodeStoreWord (w.toNat : Int) = .ok (decode w)

/-! ### One statement for each instruction: its encoding, its effect and frame, its faults

That a register field of 8..15 faults, in field order and before any write, is the spec's own decision (D1, D5), and so
is that a fault changes nothing (D18) and that unused digits are ignored (D3); log entry 13 names them all. -/

/-- R43: the zero word halts ZERO_WORD, pc unchanged, nothing executed. -/
def Obligations.HaltStopsAtTheZeroWord : Prop :=
  decode 0 = .halt ∧ ∀ s, ∃ t, exec .halt s = .next t ∧ t.run = .halted .zeroWord ∧ t.pc = s.pc ∧
    t.out = s.out ++ [.render s.cells] ∧ Frame [] s t

/-- R100: STORE. -/
def Obligations.StoreLoadsALiteralByte : Prop :=
  (∀ (x : Nibble) (imm : Byte), ¬(x = 0 ∧ imm = 0) → decode (0x0#4 ++ x ++ imm) = .store x imm) ∧
  (∀ (s : State) (rx : Fin 8) (imm : Byte), ∃ t, exec (.store (regField rx) imm) s = .next t ∧
    RegSet rx (imm.toNat : Int) s t ∧ CompletedAt (s.pc + 1) [] s t ∧ Frame [.regs] s t) ∧
  (∀ (x : Nibble) (imm : Byte), ChecksRegisters (.store x imm) [(.X, x)])

/-- R101: ADD. -/
def Obligations.AddWritesTheExactSum : Prop :=
  (∀ x y z : Nibble, decode (0x1#4 ++ x ++ y ++ z) = .add x y z) ∧
  (∀ (s : State) (rx ry rz : Fin 8), ∃ t, exec (.add (regField rx) (regField ry) (regField rz)) s = .next t ∧
    RegSet rz (s.reg rx + s.reg ry) s t ∧ CompletedAt (s.pc + 1) [] s t ∧ Frame [.regs] s t) ∧
  (∀ x y z : Nibble, ChecksRegisters (.add x y z) [(.X, x), (.Y, y), (.Z, z)])

/-- R102: SUBTRACT. -/
def Obligations.SubtractWritesTheExactDifference : Prop :=
  (∀ x y z : Nibble, decode (0x2#4 ++ x ++ y ++ z) = .subtract x y z) ∧
  (∀ (s : State) (rx ry rz : Fin 8), ∃ t, exec (.subtract (regField rx) (regField ry) (regField rz)) s = .next t ∧
    RegSet rz (s.reg rx - s.reg ry) s t ∧ CompletedAt (s.pc + 1) [] s t ∧ Frame [.regs] s t) ∧
  (∀ x y z : Nibble, ChecksRegisters (.subtract x y z) [(.X, x), (.Y, y), (.Z, z)])

/-- R103, R104: CONVERT_BYTE_TO_ASCII; the register fields are checked before the value (D5). The code numbers are the
spec's from general knowledge (log entry 14). -/
def Obligations.ConvertByteToAsciiGivesTheDigitCode : Prop :=
  (∀ x y z : Nibble, decode (0xE#4 ++ x ++ y ++ z) = .convertByteToAscii x y) ∧
  (∀ (s : State) (rx ry : Fin 8), ∃ t, exec (.convertByteToAscii (regField rx) (regField ry)) s = .next t ∧
    if s.reg rx < 0 ∨ 15 < s.reg rx then
      FaultTaken (.operandOutOfRange .convertByteToAscii (.source rx) (s.reg rx)) s t
    else RegSet ry (if s.reg rx ≤ 9 then 48 + s.reg rx else 55 + s.reg rx) s t ∧
      CompletedAt (s.pc + 1) [] s t ∧ Frame [.regs] s t) ∧
  (∀ x y : Nibble, ChecksRegisters (.convertByteToAscii x y) [(.X, x), (.Y, y)])

/-- R120: READ. -/
def Obligations.ReadLoadsFromTheSelectedStore : Prop :=
  (∀ x y z : Nibble, decode (0x3#4 ++ x ++ y ++ z) = .read x) ∧
  (∀ (s : State) (rx : Fin 8), ∃ t, exec (.read (regField rx)) s = .next t ∧
    RegSet rx (if s.M = 1 then s.progRead (s.A.toNat : Int) else s.dataRead (s.A.toNat : Int)) s t ∧
    CompletedAt (s.pc + 1) [] s t ∧ Frame [.regs] s t) ∧
  (∀ x : Nibble, ChecksRegisters (.read x) [(.X, x)])

/-- R121: WRITE. The word at A of the selected store becomes the register's, every other word of both stores is
unchanged; a program store that is not writable is unchanged whole, without a fault. -/
def Obligations.WriteStoresToTheSelectedStore : Prop :=
  (∀ x y z : Nibble, decode (0x4#4 ++ x ++ y ++ z) = .write x) ∧
  (∀ (s : State) (rx : Fin 8), ∃ t, exec (.write (regField rx)) s = .next t ∧
    (∀ a : Int, t.dataRead a = if s.M = 0 ∧ a = (s.A.toNat : Int) then s.reg rx else s.dataRead a) ∧
    (∀ a : Int, t.progRead a =
      if s.M = 1 ∧ s.cfg.romWritable = true ∧ a = (s.A.toNat : Int) then s.reg rx else s.progRead a) ∧
    CompletedAt (s.pc + 1) [] s t ∧ Frame [.prog, .data] s t) ∧
  (∀ x : Nibble, ChecksRegisters (.write x) [(.X, x)])

/-- R122: SWITCH_MEMORY. -/
def Obligations.SwitchMemoryTogglesTheMode : Prop :=
  (∀ x y z : Nibble, decode (0x7#4 ++ x ++ y ++ z) = .switchMemory) ∧
  (∀ s : State, ∃ t, exec .switchMemory s = .next t ∧ (t.M.toNat : Int) = 1 - (s.M.toNat : Int) ∧
    CompletedAt (s.pc + 1) [] s t ∧ Frame [.mode] s t)

/-- R123: SET_A. -/
def Obligations.SetALoadsTheAddressRegister : Prop :=
  (∀ imm : Addr, decode (0xA#4 ++ imm) = .setA imm) ∧
  (∀ (s : State) (imm : Addr), ∃ t, exec (.setA imm) s = .next t ∧ t.A = imm ∧
    CompletedAt (s.pc + 1) [] s t ∧ Frame [.addr] s t)

/-- R124: CONVERT_TO_BASE_TEN. Some h, u, o, the decimal digits as values when the source is in 0..999 and any integers
when not (D6, log entry 4),
stand at A, A + 1 and A + 2, not wrapped (D16), of the selected store as far as those lie in range; every other word of both stores is
unchanged, and all of them when the selected store is not writable. -/
def Obligations.ConvertToBaseTenWritesThreeDigits : Prop :=
  (∀ x y z : Nibble, decode (0xD#4 ++ x ++ y ++ z) = .convertToBaseTen x) ∧
  (∀ (s : State) (rx : Fin 8), ∃ t, exec (.convertToBaseTen (regField rx)) s = .next t ∧
    (∃ h u o : Int,
      (0 ≤ s.reg rx ∧ s.reg rx ≤ 999 →
        h = s.reg rx / 100 ∧ u = (s.reg rx / 10) % 10 ∧ o = s.reg rx % 10 ∧ t.draws = s.draws) ∧
      (∀ a : Int, t.dataRead a =
        if ¬(s.M = 0 ∧ 0 ≤ a ∧ a ≤ 4095) then s.dataRead a
        else if a = (s.A.toNat : Int) then h
        else if a = (s.A.toNat : Int) + 1 then u
        else if a = (s.A.toNat : Int) + 2 then o
        else s.dataRead a) ∧
      (∀ a : Int, t.progRead a =
        if ¬(s.M = 1 ∧ s.cfg.romWritable = true ∧ 0 ≤ a ∧ a ≤ 4095) then s.progRead a
        else if a = (s.A.toNat : Int) then h
        else if a = (s.A.toNat : Int) + 1 then u
        else if a = (s.A.toNat : Int) + 2 then o
        else s.progRead a)) ∧
    t.draws.turns = s.draws.turns ∧ t.draws.keys = s.draws.keys ∧ t.draws.turnCount = s.draws.turnCount ∧
    t.draws.keyCount = s.draws.keyCount ∧ CompletedAt (s.pc + 1) [] s t ∧ Frame [.prog, .data, .draws] s t) ∧
  (∀ x : Nibble, ChecksRegisters (.convertToBaseTen x) [(.X, x)])

/-- R140: JUMP succeeds exactly on an even address, and then pc is that address. -/
def Obligations.JumpGoesExactlyToAnEvenAddress : Prop :=
  (∀ a : Addr, decode (0x5#4 ++ a) = .jump a) ∧
  (∀ (s : State) (a : Addr), a.toNat % 2 = 0 → ∃ t, exec (.jump a) s = .next t ∧ t.pc = a.toNat ∧ t.run = s.run ∧
    t.out = s.out ∧ Frame [] s t) ∧
  (∀ (s : State) (a : Addr), a.toNat % 2 = 1 → ∃ t, exec (.jump a) s = .next t ∧
    FaultTaken (.invalidJumpTarget a) s t)

/-- R141: SKIP_EQUAL. -/
def Obligations.SkipEqualSkipsOnEqualRegisters : Prop :=
  (∀ x y z : Nibble, decode (0x8#4 ++ x ++ y ++ z) = .skipEqual x y) ∧
  (∀ (s : State) (rx ry : Fin 8), ∃ t, exec (.skipEqual (regField rx) (regField ry)) s = .next t ∧
    CompletedAt (if s.reg rx = s.reg ry then s.pc + 2 else s.pc + 1) [] s t ∧ Frame [] s t) ∧
  (∀ x y : Nibble, ChecksRegisters (.skipEqual x y) [(.X, x), (.Y, y)])

/-- R142: SKIP_NOT_EQUAL. -/
def Obligations.SkipNotEqualSkipsOnDifferentRegisters : Prop :=
  (∀ x y z : Nibble, decode (0x9#4 ++ x ++ y ++ z) = .skipNotEqual x y) ∧
  (∀ (s : State) (rx ry : Fin 8), ∃ t, exec (.skipNotEqual (regField rx) (regField ry)) s = .next t ∧
    CompletedAt (if s.reg rx = s.reg ry then s.pc + 1 else s.pc + 2) [] s t ∧ Frame [] s t) ∧
  (∀ x y : Nibble, ChecksRegisters (.skipNotEqual x y) [(.X, x), (.Y, y)])

/-- R160: READ_KEYBOARD prompts and stores the host's 8-bit answer (D7): the next scripted one, or, where none is
scripted, some byte (log entry 3). A bad register field faults before the prompt. -/
def Obligations.ReadKeyboardStoresTheHostsByte : Prop :=
  (∀ x y z : Nibble, decode (0x6#4 ++ x ++ y ++ z) = .readKeyboard x) ∧
  (∀ (s : State) (rx : Fin 8), ∃ t, exec (.readKeyboard (regField rx)) s = .next t ∧
    (∃ v : Byte, (∀ k ks, s.draws.keys = k :: ks →
      v = k ∧ t.draws.keys = ks ∧ t.draws.keyCount = s.draws.keyCount) ∧ RegSet rx (v.toNat : Int) s t) ∧
    t.draws.turns = s.draws.turns ∧ t.draws.turnCount = s.draws.turnCount ∧ t.draws.wideCount = s.draws.wideCount ∧
    CompletedAt (s.pc + 1) [.prompt] s t ∧ Frame [.regs, .draws] s t) ∧
  (∀ x : Nibble, ChecksRegisters (.readKeyboard x) [(.X, x)])

/-- R161: DRAW, digit 3 the row and digit 4 the column (D4). The register field, then the value, the row and the column are checked; otherwise cell (col, row) holds
the value and every other cell is unchanged. -/
def Obligations.DrawWritesOneCell : Prop :=
  (∀ x row col : Nibble, decode (0xF#4 ++ x ++ row ++ col) = .draw x row col) ∧
  (∀ (s : State) (rx : Fin 8) (row col : Nibble), ∃ t, exec (.draw (regField rx) row col) s = .next t ∧
    if s.reg rx < 0 ∨ 127 < s.reg rx then FaultTaken (.operandOutOfRange .draw (.source rx) (s.reg rx)) s t
    else if 7 < row.toNat then FaultTaken (.operandOutOfRange .draw .row (row.toNat : Int)) s t
    else if 7 < col.toNat then FaultTaken (.operandOutOfRange .draw .column (col.toNat : Int)) s t
    else (∀ c r : Int, t.displayRead c r =
        if c = (col.toNat : Int) ∧ r = (row.toNat : Int) then s.reg rx else s.displayRead c r) ∧
      CompletedAt (s.pc + 1) [] s t ∧ Frame [.display] s t) ∧
  (∀ x row col : Nibble, ChecksRegisters (.draw x row col) [(.X, x)])

/-- Decision D7 (the reference conversion is the host's, not normative; log entry 19) and R160: which characters are hex
digits and their values; the others do not count; a line with no digit gives 0, with one digit that digit, with more the
value of the first two; and READ_KEYBOARD stores the value of the line the host answers with. -/
def Obligations.KeyboardLinesConvert : Prop :=
  (∀ k : Fin 16, hexDigits[k.val]?.bind hexValue = some k.val) ∧
  (∀ k : Fin 6, lowerHexDigits[k.val]?.bind hexValue = some (10 + k.val)) ∧
  (∀ c : Char, c ∉ hexDigits → c ∉ lowerHexDigits → hexValue c = none) ∧
  (∀ (l : List Char) (d : Nat), l.filterMap hexValue = [d] → (kbdReference l).toNat = d) ∧
  (∀ (l : List Char) (d e : Nat) (ds : List Nat), l.filterMap hexValue = d :: e :: ds →
    (kbdReference l).toNat = d * 16 + e) ∧
  (∀ l m : List Char, ∀ c, hexValue c = none → kbdReference (l ++ c :: m) = kbdReference (l ++ m)) ∧
  (∀ l : List Char, (∀ c ∈ l, hexValue c = none) → kbdReference l = 0) ∧
  (∀ (s : State) (rx : Fin 8) (l : List Char), s.draws.keys = [] →
    ∃ t, exec (.readKeyboard (regField rx)) (s.answerLine l) = .next t ∧
      t.reg rx = ((kbdReference l).toNat : Int) ∧ t.draws = s.draws)

/-- R180: SET_T. -/
def Obligations.SetTLoadsTheCountdown : Prop :=
  (∀ (x : Nibble) (imm : Byte), decode (0xB#4 ++ x ++ imm) = .setT imm) ∧
  (∀ (s : State) (imm : Byte), ∃ t, exec (.setT imm) s = .next t ∧ t.T = imm ∧
    CompletedAt (s.pc + 1) [] s t ∧ Frame [.countdown] s t)

/-- R181: READ_T. -/
def Obligations.ReadTReadsTheCountdown : Prop :=
  (∀ x y z : Nibble, decode (0xC#4 ++ x ++ y ++ z) = .readT x) ∧
  (∀ (s : State) (rx : Fin 8), ∃ t, exec (.readT (regField rx)) s = .next t ∧
    RegSet rx (s.T.toNat : Int) s t ∧ CompletedAt (s.pc + 1) [] s t ∧ Frame [.regs] s t) ∧
  (∀ x : Nibble, ChecksRegisters (.readT x) [(.X, x)])

/-- R99 (decision D17): the assembler's pseudo-instructions are the words the spec gives them and have the effects it gives them. -/
def Obligations.PseudoInstructionsExpand : Prop :=
  encode (Pseudo.expand .halt) = 0x0000 ∧ encode (Pseudo.expand .nop) = 0x9000 ∧
  (∀ x : Nibble, encode (Pseudo.expand (.clr x)) = 0x2#4 ++ x ++ x ++ x) ∧
  (∀ s, ∃ t, exec (Pseudo.expand .halt) s = .next t ∧ t.run = .halted .zeroWord) ∧
  (∀ s, ∃ t, exec (Pseudo.expand .nop) s = .next t ∧ CompletedAt (s.pc + 1) [] s t ∧ Frame [] s t) ∧
  (∀ s (rx : Fin 8), ∃ t, exec (Pseudo.expand (.clr (regField rx))) s = .next t ∧ RegSet rx 0 s t ∧
    CompletedAt (s.pc + 1) [] s t)

/-! ### The Engine -/

/-- R40, R41, R226: on the Engine's turn a nonzero fetched word that decodes to `i` runs `i`, in the state whose turn is
consumed and whose trace has the log entry of pc and word. In a finite realisation the step is guarded: leaving the range
of REG_WIDTH is a fault (decision D2, log entry 17). -/
def Obligations.StepRunsTheDecodedInstruction : Prop :=
  ∀ (s : State) (i : Instr), s.nextTurn = .engine → s.run = .running → s.progRead s.pc ≠ 0 →
    decodeStoreWord (s.progRead s.pc) = .ok i →
    step s = s.tookTurn.guardWidth (exec i (s.tookTurn.emit (.log s.pc (s.progRead s.pc)))) ∧
    (s.cfg.regWidth = none → step s = exec i (s.tookTurn.emit (.log s.pc (s.progRead s.pc))))

/-- R43, R205: on the Engine's turn the zero word halts the Engine, unlogged, with pc unchanged (every value in the range
of REG_WIDTH: outside it the step faults, log entry 17). -/
def Obligations.StepHaltsOnTheZeroWord : Prop :=
  ∀ s : State, s.nextTurn = .engine → s.run = .running → s.fits = true → s.progRead s.pc = 0 → ∃ t, step s = .next t ∧
    t.run = .halted .zeroWord ∧ t.pc = s.pc ∧ t.out = s.out ++ [.render s.cells] ∧ t.draws = s.tookTurn.draws ∧
    Frame [.draws] s t

/-- R92 (decision D13): an integer in 0..0xFFFF is an instruction word; on the Engine's turn any other fetched integer takes
UNKNOWN_INSTRUCTION, with nothing executed or logged (every value in the range of REG_WIDTH, log entry 17). -/
def Obligations.UnknownWordsFaultAtFetch : Prop :=
  (∀ w : Int, 0 ≤ w → w ≤ 0xFFFF → ∃ i, decodeStoreWord w = .ok i) ∧
  ∀ s : State, s.nextTurn = .engine → s.run = .running → s.fits = true →
    (s.progRead s.pc < 0 ∨ 0xFFFF < s.progRead s.pc) →
    ∃ t, step s = .next t ∧ FaultTaken (.unknownInstruction (s.progRead s.pc)) s.tookTurn t

/-- R45: from HALTED the Engine has no step: its turn changes nothing; and no step of any agent changes a register, A,
M, pc, a store, the display or the run state. -/
def Obligations.HaltedIsFinal : Prop :=
  ∀ (s : State) (r : HaltReason), s.run = .halted r →
    (s.nextTurn = .engine → step s = .next s.tookTurn) ∧
    ∃ t, step s = .next t ∧ t.run = .halted r ∧ t.pc = s.pc ∧ Frame [.countdown, .timer, .draws] s t

/-- R200 (decisions D18, D30): a step that ends in a fatal fault changes nothing but the run state, the trace and the model's draws: pc is
still at the faulting word, and the report and the final render end the trace, after at most the log entry. -/
def Obligations.FaultsArePrecise : Prop :=
  ∀ (s t : State) (f : FatalFault), s.run = .running → step s = .next t → t.run = .halted (.fault f) →
    ∃ logs, (logs = [] ∨ logs = [Event.log s.pc (s.progRead s.pc)]) ∧ t.pc = s.pc ∧
      t.out = s.out ++ logs ++ [.faultReport s.pc (s.progRead s.pc) f, .render s.cells] ∧ Frame [.draws] s t

/-- R47 (decision D30): every step that enters HALTED emits exactly one render, of the display as it then is, as its last event. -/
def Obligations.EveryHaltRendersOnceLast : Prop :=
  ∀ (s t : State) (r : HaltReason), s.run = .running → step s = .next t → t.run = .halted r →
    ∃ evs : List Event, t.out = s.out ++ evs ++ [.render t.cells] ∧ ∀ e ∈ evs, isRender e = false

/-- R44 (decision D21): no instruction leaves the Engine running past the end of the program store: after any instruction but HALT, pc
is 4096 or more exactly when it halted PC_EXHAUSTED. -/
def Obligations.PcPastTheStoreHalts : Prop :=
  ∀ (i : Instr) (s t : State), i ≠ .halt → s.run = .running → s.pc ≤ 4095 → exec i s = .next t →
    (4096 ≤ t.pc ↔ t.run = .halted .pcExhausted)

/-- R42, R30, R43, R200 (decision D18, log entry 13): how pc moves: not at all with a halt at the zero word or a fault, by one, by two on a skip instruction only, or to JUMP's own even
literal. -/
def Obligations.PcMovesByOneTwoOrAJump : Prop :=
  ∀ (i : Instr) (s t : State), exec i s = .next t →
    (t.pc = s.pc ∧ (t.run = .halted .zeroWord ∨ ∃ f, t.run = .halted (.fault f))) ∨ t.pc = s.pc + 1 ∨
    (t.pc = s.pc + 2 ∧ ∃ x y, i = .skipEqual x y ∨ i = .skipNotEqual x y) ∨
    (∃ a : Addr, i = .jump a ∧ t.pc = a.toNat ∧ a.toNat % 2 = 0)

/-- Where REG_WIDTH is unbounded, no step of any state stops the model: each answers a next state. Where it is finite, a
step that does not is the width fault of an Engine that runs (decision D2, log entry 17). -/
def Obligations.EveryStepAnswersANextState : Prop :=
  ∀ s : State, (∃ t, step s = .next t) ∨
    (∃ n, s.cfg.regWidth = some n) ∧ s.nextTurn = .engine ∧ s.run = .running ∧ step s = .fault .widthExceeded

/-- D2 (log entry 17): the width check of the Engine's step passes exactly the states whose registers and store words are
all in the range, their stores being in canonical form. -/
def Obligations.TheWidthCheckSeesEveryWord : Prop :=
  ∀ s : State, (s.fits = true → WithinWidth s) ∧
    (Memory.wf 4096 0 s.prog = true → Memory.wf 4096 0 s.data = true → WithinWidth s → s.fits = true)

/-- D2 (log entry 17): a step never leaves the range of REG_WIDTH and never wraps. An Engine that runs with a value
outside it takes the width fault; a decoded instruction steps to its own effect where that stays in the range, and takes
the width fault where it would leave it; and every step of every agent keeps every value in the range. -/
def Obligations.LeavingTheWidthFaults : Prop :=
  (∀ s : State, s.nextTurn = .engine → s.run = .running → s.fits = false → step s = .fault .widthExceeded) ∧
  (∀ (s t : State) (i : Instr), s.nextTurn = .engine → s.run = .running → s.fits = true → s.progRead s.pc ≠ 0 →
    decodeStoreWord (s.progRead s.pc) = .ok i → exec i (s.tookTurn.emit (.log s.pc (s.progRead s.pc))) = .next t →
    step s = if t.fits = true then .next t else .fault .widthExceeded) ∧
  (∀ s t : State, s.fits = true → step s = .next t → t.fits = true)

/-- R35, R225: a step only appends to the output trace. -/
def Obligations.TheTraceOnlyGrows : Prop := ∀ s t : State, step s = .next t → ∃ evs, t.out = s.out ++ evs

/-- R2, R217: every interleaving is a run. Whatever finite sequence of turns is scripted, each is reached in its place
after as many steps as stand before it, so any number of ticks may fall between two Engine steps (REG_WIDTH unbounded:
a finite one may fault on the way, log entry 17). -/
def Obligations.EveryInterleavingIsARun : Prop :=
  ∀ (before after : List Turn) (u : Turn) (s : State), s.cfg.regWidth = none → s.draws.turns = before ++ u :: after →
    ∃ t, Host.Core.run core before.length s = .next t ∧ t.draws.turns = u :: after ∧ t.nextTurn = u

/-! ### Invariants and whole-machine rules -/

/-- The reset state of R240 meets the invariant. Its canonical-form clauses are the model's own (log entry 5, DESIGN
CHOICE), and so is that no tick is latched at reset (log entry 11, DESIGN CHOICE). -/
def Obligations.ResetMeetsTheInvariant : Prop := Inv State.reset

/-- Every session's start (R243), whatever its configuration and program bytes, meets the invariant. The load's rule is
decision D19 (log entry 13); the canonical-form and latch clauses are the model's own (log entries 5 and 11). -/
def Obligations.SessionsMeetTheInvariant : Prop := ∀ (c : CoreConfig) (b : List Byte), Inv (session c b)

/-- Every step of every agent keeps the invariant. Its canonical-form clauses are the model's own (log entry 5), its
latch clause is log entry 11, and where pc stands at a fault and at PC_EXHAUSTED is decisions D18 and D21 (log entry 13). -/
def Obligations.EveryStepKeepsTheInvariant : Prop := ∀ s t : State, Inv s → step s = .next t → Inv t

/-- R27, R37 (decision D12): no step changes the launch configuration. -/
def Obligations.NoStepChangesTheConfiguration : Prop := ∀ s t : State, step s = .next t → t.cfg = s.cfg

/-- R23, R24, R25, R33: A is written only by SET_A, M only by SWITCH_MEMORY, T (among instructions) only by SET_T, the
display only by DRAW, a store only by WRITE and CONVERT_TO_BASE_TEN, and the Timer's own state by no instruction. -/
def Obligations.EachPartHasItsWriters : Prop :=
  ∀ (i : Instr) (s t : State), exec i s = .next t →
    ((∀ a, i ≠ .setA a) → Part.Same s t .addr) ∧ (i ≠ .switchMemory → Part.Same s t .mode) ∧
    ((∀ b, i ≠ .setT b) → Part.Same s t .countdown) ∧ ((∀ x r c, i ≠ .draw x r c) → Part.Same s t .display) ∧
    ((∀ x, i ≠ .write x) → (∀ x, i ≠ .convertToBaseTen x) → Part.Same s t .prog ∧ Part.Same s t .data) ∧
    Part.Same s t .timer

/-- R63, R252: while the program store is not writable no step changes any word of it. -/
def Obligations.UnwritableProgramStoreNeverChanges : Prop :=
  ∀ s t : State, s.cfg.romWritable = false → step s = .next t → ∀ a, t.progRead a = s.progRead a

/-- R24, R68: an instruction writes only the store M selects: with M = 0 no program word changes, with M = 1 no data
word. -/
def Obligations.ModeConfinesStoreWrites : Prop :=
  ∀ (i : Instr) (s t : State), exec i s = .next t →
    (s.M = 0 → ∀ a, t.progRead a = s.progRead a) ∧ (s.M = 1 → ∀ a, t.dataRead a = s.dataRead a)

/-- R217: timing independence. A turn of the Timer or the host changes nothing outside T, the Timer's state and the
trace; and two states that differ only there still do after the same instruction, unless it is READ_T. -/
def Obligations.OnlyReadTSeesTheTimer : Prop :=
  (∀ (s : State) (c : HostCommand), AgreeButTimer s (timerStep s) ∧ AgreeButTimer s (hostStep c s)) ∧
  ∀ s s' t : State, AgreeButTimer s s' → engineStep s = .next t →
    (∀ x, decodeStoreWord (s.progRead s.pc) ≠ .ok (.readT x)) →
    ∃ t', engineStep s' = .next t' ∧ AgreeButTimer t t'

/-! ### Stores, display, load -/

/-- R62, R63: the program store. Reads outside 0..4095 give 0; a write succeeds exactly when the store is writable and
the address in range, and then only that word reads differently; else nothing changes. No instruction reads the success
bit: with the flag set otherwise, the same instruction does the same to everything but the program store. -/
def Obligations.ProgramStoreReadsAndWrites : Prop :=
  (∀ (s : State) (a : Int), a < 0 ∨ 4095 < a → s.progRead a = 0) ∧
  (∀ (s : State) (a v : Int), s.cfg.romWritable = true → 0 ≤ a → a ≤ 4095 → (s.progWrite a v).2 = true ∧
    (∀ b, (s.progWrite a v).1.progRead b = if b = a then v else s.progRead b) ∧
    SameControl s (s.progWrite a v).1 ∧ Frame [.prog] s (s.progWrite a v).1) ∧
  (∀ (s : State) (a v : Int), s.cfg.romWritable = false ∨ a < 0 ∨ 4095 < a → s.progWrite a v = (s, false)) ∧
  (∀ (i : Instr) (s : State) (b : Bool), ∃ t t', exec i s = .next t ∧ exec i (s.configure b) = .next t' ∧
    t'.pc = t.pc ∧ t'.run = t.run ∧ t'.out = t.out ∧ ∀ p : Part, p ∉ [.prog, .config] → p.Same t t')

/-- R64, R65: the data store. Reads outside 0..4095 give 0, writes there are dropped; a write in range changes only
that word. -/
def Obligations.DataStoreReadsAndWrites : Prop :=
  (∀ (s : State) (a : Int), a < 0 ∨ 4095 < a → s.dataRead a = 0) ∧
  (∀ (s : State) (a v : Int), 0 ≤ a → a ≤ 4095 →
    (∀ b, (s.dataWrite a v).dataRead b = if b = a then v else s.dataRead b) ∧
    SameControl s (s.dataWrite a v) ∧ Frame [.data] s (s.dataWrite a v)) ∧
  (∀ (s : State) (a v : Int), a < 0 ∨ 4095 < a → s.dataWrite a v = s)

/-- R69: the display. Reads outside 0..7 × 0..7 give 0, writes there are dropped; a write in range changes only that
cell, and no two cells share a place. -/
def Obligations.DisplayReadsAndWrites : Prop :=
  (∀ (s : State) (c r : Int), c < 0 ∨ 7 < c ∨ r < 0 ∨ 7 < r → s.displayRead c r = 0 ∧ ∀ v, s.displayWrite c r v = s) ∧
  (∀ (s : State) (c r v : Int), 0 ≤ c → c ≤ 7 → 0 ≤ r → r ≤ 7 →
    (∀ c' r', (s.displayWrite c r v).displayRead c' r' = if c' = c ∧ r' = r then v else s.displayRead c' r') ∧
    SameControl s (s.displayWrite c r v) ∧ Frame [.display] s (s.displayWrite c r v))

/-- R33, R222: a render carries all 64 cells, cell (col, row) at index row·8 + col. -/
def Obligations.RendersCarryTheSixtyFourCells : Prop :=
  ∀ s : State, s.cells.length = 64 ∧
    ∀ col row : Fin 8, s.cells[row.val * 8 + col.val]? = some (s.displayRead (col.val : Int) (row.val : Int))

/-- R242 (decision D19): the load. Slot k gets bytes 2k and 2k + 1 big-endian for every whole pair below slot 4096, whatever the
writability flag; every other slot keeps its value and nothing else changes. -/
def Obligations.LoadIsBigEndianPairs : Prop :=
  ∀ (s : State) (b : List Byte),
    (∀ (k : Nat) (hi lo : Byte), b[2 * k]? = some hi → b[2 * k + 1]? = some lo → k ≤ 4095 →
      (s.load b).progRead (k : Int) = (hi.toNat : Int) * 256 + (lo.toNat : Int)) ∧
    (∀ k : Nat, b.length / 2 ≤ k → (s.load b).progRead (k : Int) = s.progRead (k : Int)) ∧
    SameControl s (s.load b) ∧ Frame [.prog] s (s.load b)

/-- R80 (decision D22): a word written to the program store is the one the very next fetch of that address sees. -/
def Obligations.NextFetchSeesTheWrittenWord : Prop :=
  ∀ (s : State) (rx : Fin 8), s.M = 1 → s.cfg.romWritable = true → s.A.toNat = s.pc + 1 →
    ∃ t, exec (.write (regField rx)) s = .next t ∧ t.fetch = s.reg rx

/-- R240: what reset leaves. `romWritable`, `timerOn`, `tickCount` and the empty trace are the spec's decisions D12, D10,
D11 and D24; the parameters of R4 stand at the values D8 and D2 give them. -/
def Obligations.ResetValues : Prop :=
  (∀ k, State.reset.reg k = 0) ∧ State.reset.A = 0 ∧ State.reset.M = 0 ∧ State.reset.T = 0 ∧ State.reset.pc = 0 ∧
  (∀ a, State.reset.progRead a = 0) ∧ (∀ a, State.reset.dataRead a = 0) ∧
  (∀ c ∈ State.reset.cells, c = 32) ∧ State.reset.run = .running ∧ State.reset.cfg.romWritable = false ∧
  State.reset.cfg.timerTickAtomic = true ∧ State.reset.cfg.regWidth = none ∧ State.reset.timerOn = true ∧ State.reset.tickCount = 0 ∧ State.reset.out = []

/-! ### The Timer -/

/-- R215 (decisions D8, D11): a tick. On the Timer's turn, ticks being atomic and the Timer on, T goes down by one while positive, the tick
is counted modulo 60, and a render is emitted exactly when the count wraps to 0; nothing else changes. -/
def Obligations.AtomicTick : Prop :=
  ∀ s : State, s.nextTurn = .timer → s.cfg.timerTickAtomic = true → s.timerOn = true → ∃ t, step s = .next t ∧
    t.T.toNat = s.T.toNat - 1 ∧ t.tickCount.val = (s.tickCount.val + 1) % 60 ∧
    t.out = s.out ++ (if s.tickCount.val = 59 then [.render s.cells] else []) ∧
    t.pc = s.pc ∧ t.run = s.run ∧ t.timerOn = s.timerOn ∧ t.tickLatch = s.tickLatch ∧ t.draws = s.tookTurn.draws ∧
    Frame [.countdown, .timer, .draws] s t

/-- R216 (decision D8): a split tick. TickRead latches T; TickWrite stores the latched value less one if it was positive, whatever
was written to T since, and counts the tick. That a latched TickWrite always completes at the Timer's next turn, stopped
or not, is the model's choice (log entry 11): R219 says only that it may. -/
def Obligations.SplitTick : Prop :=
  (∀ s : State, s.nextTurn = .timer → s.cfg.timerTickAtomic = false → s.timerOn = true → s.tickLatch = none →
    ∃ t, step s = .next t ∧ t.tickLatch = some s.T ∧ t.tickCount = s.tickCount ∧ t.timerOn = true ∧
      SameControl s t ∧ t.draws = s.tookTurn.draws ∧ Frame [.timer, .draws] s t) ∧
  (∀ (s : State) (l : Byte), s.nextTurn = .timer → s.cfg.timerTickAtomic = false → s.tickLatch = some l →
    ∃ t, step s = .next t ∧ t.tickLatch = none ∧ t.T.toNat = (if l = 0 then s.T.toNat else l.toNat - 1) ∧
      t.tickCount.val = (s.tickCount.val + 1) % 60 ∧ t.timerOn = s.timerOn ∧
      t.out = s.out ++ (if s.tickCount.val = 59 then [.render s.cells] else []) ∧
      t.pc = s.pc ∧ t.run = s.run ∧ t.draws = s.tookTurn.draws ∧ Frame [.countdown, .timer, .draws] s t)

/-- R216 (decision D8): a SET_T between the two halves of a split tick is lost. -/
def Obligations.SplitTickLosesASetT : Prop :=
  ∀ (s t : State) (imm : Byte), s.cfg.timerTickAtomic = false → s.timerOn = true → s.tickLatch = none → s.T ≠ 0 →
    exec (.setT imm) (timerStep s) = .next t → t.T = imm ∧ (timerStep t).T = s.T - 1

/-- R218: with atomic ticks (R215), no step raises T but one that executes SET_T, so T at 0 stays 0; and a tick changes no
register but T, nor pc, the run state, a store or the display. -/
def Obligations.CountdownIsMonotone : Prop :=
  (∀ s t : State, s.cfg.timerTickAtomic = true → step s = .next t →
    (∀ b, s.nextTurn = .engine → decodeStoreWord (s.progRead s.pc) ≠ .ok (.setT b)) →
    t.T.toNat ≤ s.T.toNat ∧ (s.T = 0 → t.T = 0)) ∧
  ∀ s : State, (s.tick).T.toNat ≤ s.T.toNat ∧ (s.tick).pc = s.pc ∧ (s.tick).run = s.run ∧
    Frame [.countdown, .timer] s s.tick

/-- R219 (decision D10): the host's stop and start set the Timer off and on, twice is the same as once, and while it is off its
turns do nothing (log entry 2) unless a split tick is pending (R216). -/
def Obligations.TimerStopAndStart : Prop :=
  (∀ (s : State) (c : HostCommand), s.nextTurn = .host c → ∃ t, step s = .next t ∧
    t.timerOn = decide (c = .timerStart) ∧ t.tickCount = s.tickCount ∧ t.tickLatch = s.tickLatch ∧ SameControl s t ∧
    t.draws = s.tookTurn.draws ∧ Frame [.timer, .draws] s t) ∧
  (∀ (s : State) (c : HostCommand), hostStep c (hostStep c s) = hostStep c s) ∧
  (∀ s : State, s.timerOn = false → s.cfg.timerTickAtomic = true ∨ s.tickLatch = none → timerStep s = s)

/-- R215, decision D11: after n ticks T has gone down by n or to 0, the count is n further modulo 60, and one render
was emitted for each time it wrapped. -/
def Obligations.ManyTicks : Prop :=
  ∀ (n : Nat) (s : State), (ticks n s).T.toNat = s.T.toNat - n ∧
    (ticks n s).tickCount.val = (s.tickCount.val + n) % 60 ∧
    (ticks n s).out = s.out ++ List.replicate ((s.tickCount.val + n) / 60) (.render s.cells)

/-- R77, R251: after SET_T n and k ticks, READ_T loads n less k, or 0: never more than n. -/
def Obligations.ReadTSeesTheTicksSinceSetT : Prop :=
  ∀ (s t : State) (n : Byte) (k : Nat) (rx : Fin 8), exec (.setT n) s = .next t →
    ∃ u, exec (.readT (regField rx)) (ticks k t) = .next u ∧ u.reg rx = ((n.toNat - k : Nat) : Int)
end

