-- ==== Sys2Proof/Laws/Decode.lean ====
section
/-! SUPPORT. The fields of a word put together from its digits, and the decoder on each opcode's pattern (R90, R91). -/

namespace Sys2Proof

/-! ### Cutting fields out of put-together words -/

theorem op_append4 (o x y z : Nibble) : Word.op (o ++ x ++ y ++ z) = o := by
  apply BitVec.eq_of_getLsbD_eq
  intro i hi
  refine (BitVec.getLsbD_extractLsb' ..).trans
    (Eq.trans (b := decide (i < 4) && BitVec.getLsbD (o ++ x ++ y ++ z) (12 + i)) rfl ?_)
  have : i = 0 ∨ i = 1 ∨ i = 2 ∨ i = 3 := by omega
  rcases this with rfl | rfl | rfl | rfl <;>
    (simp only [BitVec.getLsbD_append]; simp)

theorem x_append4 (o x y z : Nibble) : Word.x (o ++ x ++ y ++ z) = x := by
  apply BitVec.eq_of_getLsbD_eq
  intro i hi
  refine (BitVec.getLsbD_extractLsb' ..).trans
    (Eq.trans (b := decide (i < 4) && BitVec.getLsbD (o ++ x ++ y ++ z) (8 + i)) rfl ?_)
  have : i = 0 ∨ i = 1 ∨ i = 2 ∨ i = 3 := by omega
  rcases this with rfl | rfl | rfl | rfl <;>
    (simp only [BitVec.getLsbD_append]; simp)

theorem y_append4 (o x y z : Nibble) : Word.y (o ++ x ++ y ++ z) = y := by
  apply BitVec.eq_of_getLsbD_eq
  intro i hi
  refine (BitVec.getLsbD_extractLsb' ..).trans
    (Eq.trans (b := decide (i < 4) && BitVec.getLsbD (o ++ x ++ y ++ z) (4 + i)) rfl ?_)
  have : i = 0 ∨ i = 1 ∨ i = 2 ∨ i = 3 := by omega
  rcases this with rfl | rfl | rfl | rfl <;>
    (simp only [BitVec.getLsbD_append]; simp)

theorem z_append4 (o x y z : Nibble) : Word.z (o ++ x ++ y ++ z) = z := by
  apply BitVec.eq_of_getLsbD_eq
  intro i hi
  refine (BitVec.getLsbD_extractLsb' ..).trans
    (Eq.trans (b := decide (i < 4) && BitVec.getLsbD (o ++ x ++ y ++ z) (0 + i)) rfl ?_)
  have : i = 0 ∨ i = 1 ∨ i = 2 ∨ i = 3 := by omega
  rcases this with rfl | rfl | rfl | rfl <;>
    (simp only [BitVec.getLsbD_append]; simp)

theorem op_append_byte (o x : Nibble) (b : Byte) : Word.op (o ++ x ++ b) = o := by
  apply BitVec.eq_of_getLsbD_eq
  intro i hi
  refine (BitVec.getLsbD_extractLsb' ..).trans
    (Eq.trans (b := decide (i < 4) && BitVec.getLsbD (o ++ x ++ b) (12 + i)) rfl ?_)
  have : i = 0 ∨ i = 1 ∨ i = 2 ∨ i = 3 := by omega
  rcases this with rfl | rfl | rfl | rfl <;>
    (simp only [BitVec.getLsbD_append]; simp)

theorem x_append_byte (o x : Nibble) (b : Byte) : Word.x (o ++ x ++ b) = x := by
  apply BitVec.eq_of_getLsbD_eq
  intro i hi
  refine (BitVec.getLsbD_extractLsb' ..).trans
    (Eq.trans (b := decide (i < 4) && BitVec.getLsbD (o ++ x ++ b) (8 + i)) rfl ?_)
  have : i = 0 ∨ i = 1 ∨ i = 2 ∨ i = 3 := by omega
  rcases this with rfl | rfl | rfl | rfl <;>
    (simp only [BitVec.getLsbD_append]; simp)

theorem yz_append_byte (o x : Nibble) (b : Byte) : Word.yz (o ++ x ++ b) = b := by
  apply BitVec.eq_of_getLsbD_eq
  intro i hi
  refine (BitVec.getLsbD_extractLsb' ..).trans
    (Eq.trans (b := decide (i < 8) && BitVec.getLsbD (o ++ x ++ b) (0 + i)) rfl ?_)
  have : i = 0 ∨ i = 1 ∨ i = 2 ∨ i = 3 ∨ i = 4 ∨ i = 5 ∨ i = 6 ∨ i = 7 := by omega
  rcases this with rfl | rfl | rfl | rfl | rfl | rfl | rfl | rfl <;>
    (simp only [BitVec.getLsbD_append]; simp)

theorem op_append_addr (o : Nibble) (a : Addr) : Word.op (o ++ a) = o := by
  apply BitVec.eq_of_getLsbD_eq
  intro i hi
  refine (BitVec.getLsbD_extractLsb' ..).trans
    (Eq.trans (b := decide (i < 4) && BitVec.getLsbD (o ++ a) (12 + i)) rfl ?_)
  have : i = 0 ∨ i = 1 ∨ i = 2 ∨ i = 3 := by omega
  rcases this with rfl | rfl | rfl | rfl <;>
    (simp only [BitVec.getLsbD_append]; simp)

theorem xyz_append_addr (o : Nibble) (a : Addr) : Word.xyz (o ++ a) = a := by
  apply BitVec.eq_of_getLsbD_eq
  intro i hi
  refine (BitVec.getLsbD_extractLsb' ..).trans
    (Eq.trans (b := decide (i < 12) && BitVec.getLsbD (o ++ a) (0 + i)) rfl ?_)
  have : i = 0 ∨ i = 1 ∨ i = 2 ∨ i = 3 ∨ i = 4 ∨ i = 5 ∨ i = 6 ∨ i = 7 ∨ i = 8 ∨ i = 9 ∨ i = 10 ∨ i = 11 := by omega
  rcases this with rfl | rfl | rfl | rfl | rfl | rfl | rfl | rfl | rfl | rfl | rfl | rfl <;>
    (simp only [BitVec.getLsbD_append]; simp)

/-! ### Every word is its four digits -/

theorem lt_sixteen {i : Nat} (hi : i < 16) : i = 0 ∨ i = 1 ∨ i = 2 ∨ i = 3 ∨ i = 4 ∨ i = 5 ∨ i = 6 ∨ i = 7 ∨ i = 8 ∨ i = 9 ∨ i = 10 ∨ i = 11 ∨ i = 12 ∨ i = 13 ∨ i = 14 ∨ i = 15 := by omega

/-- A word is its digits put together. -/
theorem word_digits (w : Word) : w.op ++ w.x ++ w.y ++ w.z = w := by
  apply BitVec.eq_of_getLsbD_eq
  intro i hi
  refine Eq.trans (b := BitVec.getLsbD (w.op ++ w.x ++ w.y ++ w.z) i) rfl ?_
  rcases lt_sixteen hi with rfl|rfl|rfl|rfl|rfl|rfl|rfl|rfl|rfl|rfl|rfl|rfl|rfl|rfl|rfl|rfl <;>
    (simp only [BitVec.getLsbD_append, Word.op, Word.x, Word.y, Word.z]; simp)

/-- The low byte of four digits. -/
theorem yz_append4 (o x y z : Nibble) : Word.yz (o ++ x ++ y ++ z) = y ++ z := by
  apply BitVec.eq_of_getLsbD_eq
  intro i hi
  refine (BitVec.getLsbD_extractLsb' ..).trans
    (Eq.trans (b := decide (i < 8) && BitVec.getLsbD (o ++ x ++ y ++ z) (0 + i)) rfl
      (Eq.trans (b := BitVec.getLsbD (y ++ z) i) ?_ rfl))
  rcases lt_sixteen (Nat.lt_of_lt_of_le hi (by decide)) with rfl|rfl|rfl|rfl|rfl|rfl|rfl|rfl|rfl|rfl|rfl|rfl|rfl|rfl|rfl|rfl <;>
    first
    | omega
    | (simp only [BitVec.getLsbD_append]; simp)

/-- The low 12 bits of four digits. -/
theorem xyz_append4 (o x y z : Nibble) : Word.xyz (o ++ x ++ y ++ z) = x ++ y ++ z := by
  apply BitVec.eq_of_getLsbD_eq
  intro i hi
  refine (BitVec.getLsbD_extractLsb' ..).trans
    (Eq.trans (b := decide (i < 12) && BitVec.getLsbD (o ++ x ++ y ++ z) (0 + i)) rfl
      (Eq.trans (b := BitVec.getLsbD (x ++ y ++ z) i) ?_ rfl))
  rcases lt_sixteen (Nat.lt_of_lt_of_le hi (by decide)) with rfl|rfl|rfl|rfl|rfl|rfl|rfl|rfl|rfl|rfl|rfl|rfl|rfl|rfl|rfl|rfl <;>
    first
    | omega
    | (simp only [BitVec.getLsbD_append]; simp)

theorem append_byte_digits (o x y z : Nibble) : ((o ++ x ++ (y ++ z) : BitVec _) : Word) = (o ++ x ++ y ++ z : BitVec _) := by
  apply BitVec.eq_of_getLsbD_eq
  intro i hi
  refine Eq.trans (b := BitVec.getLsbD (o ++ x ++ (y ++ z)) i) rfl
    (Eq.trans (b := BitVec.getLsbD (o ++ x ++ y ++ z) i) ?_ rfl)
  rcases lt_sixteen hi with rfl|rfl|rfl|rfl|rfl|rfl|rfl|rfl|rfl|rfl|rfl|rfl|rfl|rfl|rfl|rfl <;>
    (simp only [BitVec.getLsbD_append]; simp)

theorem append_addr_digits (o x y z : Nibble) : ((o ++ (x ++ y ++ z) : BitVec _) : Word) = (o ++ x ++ y ++ z : BitVec _) := by
  apply BitVec.eq_of_getLsbD_eq
  intro i hi
  refine Eq.trans (b := BitVec.getLsbD (o ++ (x ++ y ++ z)) i) rfl
    (Eq.trans (b := BitVec.getLsbD (o ++ x ++ y ++ z) i) ?_ rfl)
  rcases lt_sixteen hi with rfl|rfl|rfl|rfl|rfl|rfl|rfl|rfl|rfl|rfl|rfl|rfl|rfl|rfl|rfl|rfl <;>
    (simp only [BitVec.getLsbD_append]; simp)

theorem append4_and_FF00 (o x y z : Nibble) : ((o ++ x ++ y ++ z : BitVec _) : Word) &&& 0xFF00 = (o ++ x ++ 0#8 : BitVec _) := by
  apply BitVec.eq_of_getLsbD_eq
  intro i hi
  refine (BitVec.getLsbD_and ..).trans
    (Eq.trans (b := BitVec.getLsbD (o ++ x ++ y ++ z) i && BitVec.getLsbD (0xFF00 : Word) i) rfl
      (Eq.trans (b := BitVec.getLsbD (o ++ x ++ 0#8) i) ?_ rfl))
  rcases lt_sixteen hi with rfl|rfl|rfl|rfl|rfl|rfl|rfl|rfl|rfl|rfl|rfl|rfl|rfl|rfl|rfl|rfl <;>
    (simp only [BitVec.getLsbD_append]; simp)

theorem append4_and_F000 (o x y z : Nibble) : ((o ++ x ++ y ++ z : BitVec _) : Word) &&& 0xF000 = (o ++ 0#12 : BitVec _) := by
  apply BitVec.eq_of_getLsbD_eq
  intro i hi
  refine (BitVec.getLsbD_and ..).trans
    (Eq.trans (b := BitVec.getLsbD (o ++ x ++ y ++ z) i && BitVec.getLsbD (0xF000 : Word) i) rfl
      (Eq.trans (b := BitVec.getLsbD (o ++ 0#12) i) ?_ rfl))
  rcases lt_sixteen hi with rfl|rfl|rfl|rfl|rfl|rfl|rfl|rfl|rfl|rfl|rfl|rfl|rfl|rfl|rfl|rfl <;>
    (simp only [BitVec.getLsbD_append]; simp)

theorem append4_and_FFF0 (o x y z : Nibble) : ((o ++ x ++ y ++ z : BitVec _) : Word) &&& 0xFFF0 = (o ++ x ++ y ++ 0#4 : BitVec _) := by
  apply BitVec.eq_of_getLsbD_eq
  intro i hi
  refine (BitVec.getLsbD_and ..).trans
    (Eq.trans (b := BitVec.getLsbD (o ++ x ++ y ++ z) i && BitVec.getLsbD (0xFFF0 : Word) i) rfl
      (Eq.trans (b := BitVec.getLsbD (o ++ x ++ y ++ 0#4) i) ?_ rfl))
  rcases lt_sixteen hi with rfl|rfl|rfl|rfl|rfl|rfl|rfl|rfl|rfl|rfl|rfl|rfl|rfl|rfl|rfl|rfl <;>
    (simp only [BitVec.getLsbD_append]; simp)

theorem append4_and_F0FF (o x y z : Nibble) : ((o ++ x ++ y ++ z : BitVec _) : Word) &&& 0xF0FF = (o ++ 0#4 ++ y ++ z : BitVec _) := by
  apply BitVec.eq_of_getLsbD_eq
  intro i hi
  refine (BitVec.getLsbD_and ..).trans
    (Eq.trans (b := BitVec.getLsbD (o ++ x ++ y ++ z) i && BitVec.getLsbD (0xF0FF : Word) i) rfl
      (Eq.trans (b := BitVec.getLsbD (o ++ 0#4 ++ y ++ z) i) ?_ rfl))
  rcases lt_sixteen hi with rfl|rfl|rfl|rfl|rfl|rfl|rfl|rfl|rfl|rfl|rfl|rfl|rfl|rfl|rfl|rfl <;>
    (simp only [BitVec.getLsbD_append]; simp)

/-! ### Dispatch -/

/-- A word whose leading digit is not 0 is dispatched. -/
theorem decode_of_op_ne {w : Word} (h : w.op ≠ 0) : decode w = dispatch w := by
  have : w ≠ 0 := by rintro rfl; exact h rfl
  rw [decode, if_neg this]

/-- The decoder on four digits, the first not 0. -/
theorem decode_append4 {o : Nibble} (h : o ≠ 0) (x y z : Nibble) :
    decode (o ++ x ++ y ++ z) = dispatch (o ++ x ++ y ++ z) :=
  decode_of_op_ne (by rw [op_append4]; exact h)

/-- The decoder on two digits and a byte, the first digit not 0. -/
theorem decode_append_byte {o : Nibble} (h : o ≠ 0) (x : Nibble) (b : Byte) :
    decode (o ++ x ++ b) = dispatch (o ++ x ++ b) :=
  decode_of_op_ne (by rw [op_append_byte]; exact h)

/-- The decoder on a digit and a 12-bit literal, the digit not 0. -/
theorem decode_append_addr {o : Nibble} (h : o ≠ 0) (a : Addr) : decode (o ++ a) = dispatch (o ++ a) :=
  decode_of_op_ne (by rw [op_append_addr]; exact h)

end Sys2Proof
end

