-- ==== Sys2Proof/Laws/State.lean ====
section
/-! SUPPORT. What each single-field update of State does to each field, by rfl; then the register file. -/

namespace Sys2Proof.Machine

variable (s : State)

@[simp] theorem State.setReg_regs (k : Fin 8) (v : Int) : (s.setReg k v).regs = s.regs.set k v := rfl
@[simp] theorem State.setReg_A (k : Fin 8) (v : Int) : (s.setReg k v).A = s.A := rfl
@[simp] theorem State.setReg_M (k : Fin 8) (v : Int) : (s.setReg k v).M = s.M := rfl
@[simp] theorem State.setReg_T (k : Fin 8) (v : Int) : (s.setReg k v).T = s.T := rfl
@[simp] theorem State.setReg_pc (k : Fin 8) (v : Int) : (s.setReg k v).pc = s.pc := rfl
@[simp] theorem State.setReg_prog (k : Fin 8) (v : Int) : (s.setReg k v).prog = s.prog := rfl
@[simp] theorem State.setReg_data (k : Fin 8) (v : Int) : (s.setReg k v).data = s.data := rfl
@[simp] theorem State.setReg_display (k : Fin 8) (v : Int) : (s.setReg k v).display = s.display := rfl
@[simp] theorem State.setReg_run (k : Fin 8) (v : Int) : (s.setReg k v).run = s.run := rfl
@[simp] theorem State.setReg_timerOn (k : Fin 8) (v : Int) : (s.setReg k v).timerOn = s.timerOn := rfl
@[simp] theorem State.setReg_tickCount (k : Fin 8) (v : Int) : (s.setReg k v).tickCount = s.tickCount := rfl
@[simp] theorem State.setReg_tickLatch (k : Fin 8) (v : Int) : (s.setReg k v).tickLatch = s.tickLatch := rfl
@[simp] theorem State.setReg_out (k : Fin 8) (v : Int) : (s.setReg k v).out = s.out := rfl
@[simp] theorem State.setReg_cfg (k : Fin 8) (v : Int) : (s.setReg k v).cfg = s.cfg := rfl
@[simp] theorem State.setReg_draws (k : Fin 8) (v : Int) : (s.setReg k v).draws = s.draws := rfl

@[simp] theorem State.setA_regs (a : Addr) : (s.setA a).regs = s.regs := rfl
@[simp] theorem State.setA_A (a : Addr) : (s.setA a).A = a := rfl
@[simp] theorem State.setA_M (a : Addr) : (s.setA a).M = s.M := rfl
@[simp] theorem State.setA_T (a : Addr) : (s.setA a).T = s.T := rfl
@[simp] theorem State.setA_pc (a : Addr) : (s.setA a).pc = s.pc := rfl
@[simp] theorem State.setA_prog (a : Addr) : (s.setA a).prog = s.prog := rfl
@[simp] theorem State.setA_data (a : Addr) : (s.setA a).data = s.data := rfl
@[simp] theorem State.setA_display (a : Addr) : (s.setA a).display = s.display := rfl
@[simp] theorem State.setA_run (a : Addr) : (s.setA a).run = s.run := rfl
@[simp] theorem State.setA_timerOn (a : Addr) : (s.setA a).timerOn = s.timerOn := rfl
@[simp] theorem State.setA_tickCount (a : Addr) : (s.setA a).tickCount = s.tickCount := rfl
@[simp] theorem State.setA_tickLatch (a : Addr) : (s.setA a).tickLatch = s.tickLatch := rfl
@[simp] theorem State.setA_out (a : Addr) : (s.setA a).out = s.out := rfl
@[simp] theorem State.setA_cfg (a : Addr) : (s.setA a).cfg = s.cfg := rfl
@[simp] theorem State.setA_draws (a : Addr) : (s.setA a).draws = s.draws := rfl

@[simp] theorem State.setM_regs (m : BitVec 1) : (s.setM m).regs = s.regs := rfl
@[simp] theorem State.setM_A (m : BitVec 1) : (s.setM m).A = s.A := rfl
@[simp] theorem State.setM_M (m : BitVec 1) : (s.setM m).M = m := rfl
@[simp] theorem State.setM_T (m : BitVec 1) : (s.setM m).T = s.T := rfl
@[simp] theorem State.setM_pc (m : BitVec 1) : (s.setM m).pc = s.pc := rfl
@[simp] theorem State.setM_prog (m : BitVec 1) : (s.setM m).prog = s.prog := rfl
@[simp] theorem State.setM_data (m : BitVec 1) : (s.setM m).data = s.data := rfl
@[simp] theorem State.setM_display (m : BitVec 1) : (s.setM m).display = s.display := rfl
@[simp] theorem State.setM_run (m : BitVec 1) : (s.setM m).run = s.run := rfl
@[simp] theorem State.setM_timerOn (m : BitVec 1) : (s.setM m).timerOn = s.timerOn := rfl
@[simp] theorem State.setM_tickCount (m : BitVec 1) : (s.setM m).tickCount = s.tickCount := rfl
@[simp] theorem State.setM_tickLatch (m : BitVec 1) : (s.setM m).tickLatch = s.tickLatch := rfl
@[simp] theorem State.setM_out (m : BitVec 1) : (s.setM m).out = s.out := rfl
@[simp] theorem State.setM_cfg (m : BitVec 1) : (s.setM m).cfg = s.cfg := rfl
@[simp] theorem State.setM_draws (m : BitVec 1) : (s.setM m).draws = s.draws := rfl

@[simp] theorem State.setT_regs (t : Byte) : (s.setT t).regs = s.regs := rfl
@[simp] theorem State.setT_A (t : Byte) : (s.setT t).A = s.A := rfl
@[simp] theorem State.setT_M (t : Byte) : (s.setT t).M = s.M := rfl
@[simp] theorem State.setT_T (t : Byte) : (s.setT t).T = t := rfl
@[simp] theorem State.setT_pc (t : Byte) : (s.setT t).pc = s.pc := rfl
@[simp] theorem State.setT_prog (t : Byte) : (s.setT t).prog = s.prog := rfl
@[simp] theorem State.setT_data (t : Byte) : (s.setT t).data = s.data := rfl
@[simp] theorem State.setT_display (t : Byte) : (s.setT t).display = s.display := rfl
@[simp] theorem State.setT_run (t : Byte) : (s.setT t).run = s.run := rfl
@[simp] theorem State.setT_timerOn (t : Byte) : (s.setT t).timerOn = s.timerOn := rfl
@[simp] theorem State.setT_tickCount (t : Byte) : (s.setT t).tickCount = s.tickCount := rfl
@[simp] theorem State.setT_tickLatch (t : Byte) : (s.setT t).tickLatch = s.tickLatch := rfl
@[simp] theorem State.setT_out (t : Byte) : (s.setT t).out = s.out := rfl
@[simp] theorem State.setT_cfg (t : Byte) : (s.setT t).cfg = s.cfg := rfl
@[simp] theorem State.setT_draws (t : Byte) : (s.setT t).draws = s.draws := rfl

@[simp] theorem State.setPc_regs (a : Nat) : (s.setPc a).regs = s.regs := rfl
@[simp] theorem State.setPc_A (a : Nat) : (s.setPc a).A = s.A := rfl
@[simp] theorem State.setPc_M (a : Nat) : (s.setPc a).M = s.M := rfl
@[simp] theorem State.setPc_T (a : Nat) : (s.setPc a).T = s.T := rfl
@[simp] theorem State.setPc_pc (a : Nat) : (s.setPc a).pc = a := rfl
@[simp] theorem State.setPc_prog (a : Nat) : (s.setPc a).prog = s.prog := rfl
@[simp] theorem State.setPc_data (a : Nat) : (s.setPc a).data = s.data := rfl
@[simp] theorem State.setPc_display (a : Nat) : (s.setPc a).display = s.display := rfl
@[simp] theorem State.setPc_run (a : Nat) : (s.setPc a).run = s.run := rfl
@[simp] theorem State.setPc_timerOn (a : Nat) : (s.setPc a).timerOn = s.timerOn := rfl
@[simp] theorem State.setPc_tickCount (a : Nat) : (s.setPc a).tickCount = s.tickCount := rfl
@[simp] theorem State.setPc_tickLatch (a : Nat) : (s.setPc a).tickLatch = s.tickLatch := rfl
@[simp] theorem State.setPc_out (a : Nat) : (s.setPc a).out = s.out := rfl
@[simp] theorem State.setPc_cfg (a : Nat) : (s.setPc a).cfg = s.cfg := rfl
@[simp] theorem State.setPc_draws (a : Nat) : (s.setPc a).draws = s.draws := rfl

@[simp] theorem State.setProg_regs (m : Memory) : (s.setProg m).regs = s.regs := rfl
@[simp] theorem State.setProg_A (m : Memory) : (s.setProg m).A = s.A := rfl
@[simp] theorem State.setProg_M (m : Memory) : (s.setProg m).M = s.M := rfl
@[simp] theorem State.setProg_T (m : Memory) : (s.setProg m).T = s.T := rfl
@[simp] theorem State.setProg_pc (m : Memory) : (s.setProg m).pc = s.pc := rfl
@[simp] theorem State.setProg_prog (m : Memory) : (s.setProg m).prog = m := rfl
@[simp] theorem State.setProg_data (m : Memory) : (s.setProg m).data = s.data := rfl
@[simp] theorem State.setProg_display (m : Memory) : (s.setProg m).display = s.display := rfl
@[simp] theorem State.setProg_run (m : Memory) : (s.setProg m).run = s.run := rfl
@[simp] theorem State.setProg_timerOn (m : Memory) : (s.setProg m).timerOn = s.timerOn := rfl
@[simp] theorem State.setProg_tickCount (m : Memory) : (s.setProg m).tickCount = s.tickCount := rfl
@[simp] theorem State.setProg_tickLatch (m : Memory) : (s.setProg m).tickLatch = s.tickLatch := rfl
@[simp] theorem State.setProg_out (m : Memory) : (s.setProg m).out = s.out := rfl
@[simp] theorem State.setProg_cfg (m : Memory) : (s.setProg m).cfg = s.cfg := rfl
@[simp] theorem State.setProg_draws (m : Memory) : (s.setProg m).draws = s.draws := rfl

@[simp] theorem State.setData_regs (m : Memory) : (s.setData m).regs = s.regs := rfl
@[simp] theorem State.setData_A (m : Memory) : (s.setData m).A = s.A := rfl
@[simp] theorem State.setData_M (m : Memory) : (s.setData m).M = s.M := rfl
@[simp] theorem State.setData_T (m : Memory) : (s.setData m).T = s.T := rfl
@[simp] theorem State.setData_pc (m : Memory) : (s.setData m).pc = s.pc := rfl
@[simp] theorem State.setData_prog (m : Memory) : (s.setData m).prog = s.prog := rfl
@[simp] theorem State.setData_data (m : Memory) : (s.setData m).data = m := rfl
@[simp] theorem State.setData_display (m : Memory) : (s.setData m).display = s.display := rfl
@[simp] theorem State.setData_run (m : Memory) : (s.setData m).run = s.run := rfl
@[simp] theorem State.setData_timerOn (m : Memory) : (s.setData m).timerOn = s.timerOn := rfl
@[simp] theorem State.setData_tickCount (m : Memory) : (s.setData m).tickCount = s.tickCount := rfl
@[simp] theorem State.setData_tickLatch (m : Memory) : (s.setData m).tickLatch = s.tickLatch := rfl
@[simp] theorem State.setData_out (m : Memory) : (s.setData m).out = s.out := rfl
@[simp] theorem State.setData_cfg (m : Memory) : (s.setData m).cfg = s.cfg := rfl
@[simp] theorem State.setData_draws (m : Memory) : (s.setData m).draws = s.draws := rfl

@[simp] theorem State.setDisplay_regs (m : Memory) : (s.setDisplay m).regs = s.regs := rfl
@[simp] theorem State.setDisplay_A (m : Memory) : (s.setDisplay m).A = s.A := rfl
@[simp] theorem State.setDisplay_M (m : Memory) : (s.setDisplay m).M = s.M := rfl
@[simp] theorem State.setDisplay_T (m : Memory) : (s.setDisplay m).T = s.T := rfl
@[simp] theorem State.setDisplay_pc (m : Memory) : (s.setDisplay m).pc = s.pc := rfl
@[simp] theorem State.setDisplay_prog (m : Memory) : (s.setDisplay m).prog = s.prog := rfl
@[simp] theorem State.setDisplay_data (m : Memory) : (s.setDisplay m).data = s.data := rfl
@[simp] theorem State.setDisplay_display (m : Memory) : (s.setDisplay m).display = m := rfl
@[simp] theorem State.setDisplay_run (m : Memory) : (s.setDisplay m).run = s.run := rfl
@[simp] theorem State.setDisplay_timerOn (m : Memory) : (s.setDisplay m).timerOn = s.timerOn := rfl
@[simp] theorem State.setDisplay_tickCount (m : Memory) : (s.setDisplay m).tickCount = s.tickCount := rfl
@[simp] theorem State.setDisplay_tickLatch (m : Memory) : (s.setDisplay m).tickLatch = s.tickLatch := rfl
@[simp] theorem State.setDisplay_out (m : Memory) : (s.setDisplay m).out = s.out := rfl
@[simp] theorem State.setDisplay_cfg (m : Memory) : (s.setDisplay m).cfg = s.cfg := rfl
@[simp] theorem State.setDisplay_draws (m : Memory) : (s.setDisplay m).draws = s.draws := rfl

@[simp] theorem State.setRun_regs (r : RunState) : (s.setRun r).regs = s.regs := rfl
@[simp] theorem State.setRun_A (r : RunState) : (s.setRun r).A = s.A := rfl
@[simp] theorem State.setRun_M (r : RunState) : (s.setRun r).M = s.M := rfl
@[simp] theorem State.setRun_T (r : RunState) : (s.setRun r).T = s.T := rfl
@[simp] theorem State.setRun_pc (r : RunState) : (s.setRun r).pc = s.pc := rfl
@[simp] theorem State.setRun_prog (r : RunState) : (s.setRun r).prog = s.prog := rfl
@[simp] theorem State.setRun_data (r : RunState) : (s.setRun r).data = s.data := rfl
@[simp] theorem State.setRun_display (r : RunState) : (s.setRun r).display = s.display := rfl
@[simp] theorem State.setRun_run (r : RunState) : (s.setRun r).run = r := rfl
@[simp] theorem State.setRun_timerOn (r : RunState) : (s.setRun r).timerOn = s.timerOn := rfl
@[simp] theorem State.setRun_tickCount (r : RunState) : (s.setRun r).tickCount = s.tickCount := rfl
@[simp] theorem State.setRun_tickLatch (r : RunState) : (s.setRun r).tickLatch = s.tickLatch := rfl
@[simp] theorem State.setRun_out (r : RunState) : (s.setRun r).out = s.out := rfl
@[simp] theorem State.setRun_cfg (r : RunState) : (s.setRun r).cfg = s.cfg := rfl
@[simp] theorem State.setRun_draws (r : RunState) : (s.setRun r).draws = s.draws := rfl

@[simp] theorem State.setTimerOn_regs (b : Bool) : (s.setTimerOn b).regs = s.regs := rfl
@[simp] theorem State.setTimerOn_A (b : Bool) : (s.setTimerOn b).A = s.A := rfl
@[simp] theorem State.setTimerOn_M (b : Bool) : (s.setTimerOn b).M = s.M := rfl
@[simp] theorem State.setTimerOn_T (b : Bool) : (s.setTimerOn b).T = s.T := rfl
@[simp] theorem State.setTimerOn_pc (b : Bool) : (s.setTimerOn b).pc = s.pc := rfl
@[simp] theorem State.setTimerOn_prog (b : Bool) : (s.setTimerOn b).prog = s.prog := rfl
@[simp] theorem State.setTimerOn_data (b : Bool) : (s.setTimerOn b).data = s.data := rfl
@[simp] theorem State.setTimerOn_display (b : Bool) : (s.setTimerOn b).display = s.display := rfl
@[simp] theorem State.setTimerOn_run (b : Bool) : (s.setTimerOn b).run = s.run := rfl
@[simp] theorem State.setTimerOn_timerOn (b : Bool) : (s.setTimerOn b).timerOn = b := rfl
@[simp] theorem State.setTimerOn_tickCount (b : Bool) : (s.setTimerOn b).tickCount = s.tickCount := rfl
@[simp] theorem State.setTimerOn_tickLatch (b : Bool) : (s.setTimerOn b).tickLatch = s.tickLatch := rfl
@[simp] theorem State.setTimerOn_out (b : Bool) : (s.setTimerOn b).out = s.out := rfl
@[simp] theorem State.setTimerOn_cfg (b : Bool) : (s.setTimerOn b).cfg = s.cfg := rfl
@[simp] theorem State.setTimerOn_draws (b : Bool) : (s.setTimerOn b).draws = s.draws := rfl

@[simp] theorem State.setTickCount_regs (n : Fin 60) : (s.setTickCount n).regs = s.regs := rfl
@[simp] theorem State.setTickCount_A (n : Fin 60) : (s.setTickCount n).A = s.A := rfl
@[simp] theorem State.setTickCount_M (n : Fin 60) : (s.setTickCount n).M = s.M := rfl
@[simp] theorem State.setTickCount_T (n : Fin 60) : (s.setTickCount n).T = s.T := rfl
@[simp] theorem State.setTickCount_pc (n : Fin 60) : (s.setTickCount n).pc = s.pc := rfl
@[simp] theorem State.setTickCount_prog (n : Fin 60) : (s.setTickCount n).prog = s.prog := rfl
@[simp] theorem State.setTickCount_data (n : Fin 60) : (s.setTickCount n).data = s.data := rfl
@[simp] theorem State.setTickCount_display (n : Fin 60) : (s.setTickCount n).display = s.display := rfl
@[simp] theorem State.setTickCount_run (n : Fin 60) : (s.setTickCount n).run = s.run := rfl
@[simp] theorem State.setTickCount_timerOn (n : Fin 60) : (s.setTickCount n).timerOn = s.timerOn := rfl
@[simp] theorem State.setTickCount_tickCount (n : Fin 60) : (s.setTickCount n).tickCount = n := rfl
@[simp] theorem State.setTickCount_tickLatch (n : Fin 60) : (s.setTickCount n).tickLatch = s.tickLatch := rfl
@[simp] theorem State.setTickCount_out (n : Fin 60) : (s.setTickCount n).out = s.out := rfl
@[simp] theorem State.setTickCount_cfg (n : Fin 60) : (s.setTickCount n).cfg = s.cfg := rfl
@[simp] theorem State.setTickCount_draws (n : Fin 60) : (s.setTickCount n).draws = s.draws := rfl

@[simp] theorem State.setTickLatch_regs (t : Option Byte) : (s.setTickLatch t).regs = s.regs := rfl
@[simp] theorem State.setTickLatch_A (t : Option Byte) : (s.setTickLatch t).A = s.A := rfl
@[simp] theorem State.setTickLatch_M (t : Option Byte) : (s.setTickLatch t).M = s.M := rfl
@[simp] theorem State.setTickLatch_T (t : Option Byte) : (s.setTickLatch t).T = s.T := rfl
@[simp] theorem State.setTickLatch_pc (t : Option Byte) : (s.setTickLatch t).pc = s.pc := rfl
@[simp] theorem State.setTickLatch_prog (t : Option Byte) : (s.setTickLatch t).prog = s.prog := rfl
@[simp] theorem State.setTickLatch_data (t : Option Byte) : (s.setTickLatch t).data = s.data := rfl
@[simp] theorem State.setTickLatch_display (t : Option Byte) : (s.setTickLatch t).display = s.display := rfl
@[simp] theorem State.setTickLatch_run (t : Option Byte) : (s.setTickLatch t).run = s.run := rfl
@[simp] theorem State.setTickLatch_timerOn (t : Option Byte) : (s.setTickLatch t).timerOn = s.timerOn := rfl
@[simp] theorem State.setTickLatch_tickCount (t : Option Byte) : (s.setTickLatch t).tickCount = s.tickCount := rfl
@[simp] theorem State.setTickLatch_tickLatch (t : Option Byte) : (s.setTickLatch t).tickLatch = t := rfl
@[simp] theorem State.setTickLatch_out (t : Option Byte) : (s.setTickLatch t).out = s.out := rfl
@[simp] theorem State.setTickLatch_cfg (t : Option Byte) : (s.setTickLatch t).cfg = s.cfg := rfl
@[simp] theorem State.setTickLatch_draws (t : Option Byte) : (s.setTickLatch t).draws = s.draws := rfl

@[simp] theorem State.emit_regs (e : Event) : (s.emit e).regs = s.regs := rfl
@[simp] theorem State.emit_A (e : Event) : (s.emit e).A = s.A := rfl
@[simp] theorem State.emit_M (e : Event) : (s.emit e).M = s.M := rfl
@[simp] theorem State.emit_T (e : Event) : (s.emit e).T = s.T := rfl
@[simp] theorem State.emit_pc (e : Event) : (s.emit e).pc = s.pc := rfl
@[simp] theorem State.emit_prog (e : Event) : (s.emit e).prog = s.prog := rfl
@[simp] theorem State.emit_data (e : Event) : (s.emit e).data = s.data := rfl
@[simp] theorem State.emit_display (e : Event) : (s.emit e).display = s.display := rfl
@[simp] theorem State.emit_run (e : Event) : (s.emit e).run = s.run := rfl
@[simp] theorem State.emit_timerOn (e : Event) : (s.emit e).timerOn = s.timerOn := rfl
@[simp] theorem State.emit_tickCount (e : Event) : (s.emit e).tickCount = s.tickCount := rfl
@[simp] theorem State.emit_tickLatch (e : Event) : (s.emit e).tickLatch = s.tickLatch := rfl
@[simp] theorem State.emit_out (e : Event) : (s.emit e).out = s.out ++ [e] := rfl
@[simp] theorem State.emit_cfg (e : Event) : (s.emit e).cfg = s.cfg := rfl
@[simp] theorem State.emit_draws (e : Event) : (s.emit e).draws = s.draws := rfl

@[simp] theorem State.setCfg_regs (c : CoreConfig) : (s.setCfg c).regs = s.regs := rfl
@[simp] theorem State.setCfg_A (c : CoreConfig) : (s.setCfg c).A = s.A := rfl
@[simp] theorem State.setCfg_M (c : CoreConfig) : (s.setCfg c).M = s.M := rfl
@[simp] theorem State.setCfg_T (c : CoreConfig) : (s.setCfg c).T = s.T := rfl
@[simp] theorem State.setCfg_pc (c : CoreConfig) : (s.setCfg c).pc = s.pc := rfl
@[simp] theorem State.setCfg_prog (c : CoreConfig) : (s.setCfg c).prog = s.prog := rfl
@[simp] theorem State.setCfg_data (c : CoreConfig) : (s.setCfg c).data = s.data := rfl
@[simp] theorem State.setCfg_display (c : CoreConfig) : (s.setCfg c).display = s.display := rfl
@[simp] theorem State.setCfg_run (c : CoreConfig) : (s.setCfg c).run = s.run := rfl
@[simp] theorem State.setCfg_timerOn (c : CoreConfig) : (s.setCfg c).timerOn = s.timerOn := rfl
@[simp] theorem State.setCfg_tickCount (c : CoreConfig) : (s.setCfg c).tickCount = s.tickCount := rfl
@[simp] theorem State.setCfg_tickLatch (c : CoreConfig) : (s.setCfg c).tickLatch = s.tickLatch := rfl
@[simp] theorem State.setCfg_out (c : CoreConfig) : (s.setCfg c).out = s.out := rfl
@[simp] theorem State.setCfg_cfg (c : CoreConfig) : (s.setCfg c).cfg = c := rfl
@[simp] theorem State.setCfg_draws (c : CoreConfig) : (s.setCfg c).draws = s.draws := rfl

@[simp] theorem State.setDraws_regs (d : Draws) : (s.setDraws d).regs = s.regs := rfl
@[simp] theorem State.setDraws_A (d : Draws) : (s.setDraws d).A = s.A := rfl
@[simp] theorem State.setDraws_M (d : Draws) : (s.setDraws d).M = s.M := rfl
@[simp] theorem State.setDraws_T (d : Draws) : (s.setDraws d).T = s.T := rfl
@[simp] theorem State.setDraws_pc (d : Draws) : (s.setDraws d).pc = s.pc := rfl
@[simp] theorem State.setDraws_prog (d : Draws) : (s.setDraws d).prog = s.prog := rfl
@[simp] theorem State.setDraws_data (d : Draws) : (s.setDraws d).data = s.data := rfl
@[simp] theorem State.setDraws_display (d : Draws) : (s.setDraws d).display = s.display := rfl
@[simp] theorem State.setDraws_run (d : Draws) : (s.setDraws d).run = s.run := rfl
@[simp] theorem State.setDraws_timerOn (d : Draws) : (s.setDraws d).timerOn = s.timerOn := rfl
@[simp] theorem State.setDraws_tickCount (d : Draws) : (s.setDraws d).tickCount = s.tickCount := rfl
@[simp] theorem State.setDraws_tickLatch (d : Draws) : (s.setDraws d).tickLatch = s.tickLatch := rfl
@[simp] theorem State.setDraws_out (d : Draws) : (s.setDraws d).out = s.out := rfl
@[simp] theorem State.setDraws_cfg (d : Draws) : (s.setDraws d).cfg = s.cfg := rfl
@[simp] theorem State.setDraws_draws (d : Draws) : (s.setDraws d).draws = d := rfl

/-- Read after write in the register file. -/
theorem Regs.get_set (g : Regs) (k j : Fin 8) (v : Int) :
    (g.set k v).get j = if j = k then v else g.get j := by
  fin_cases k <;> fin_cases j <;> rfl

@[simp] theorem State.reg_setReg (k j : Fin 8) (v : Int) :
    (s.setReg k v).reg j = if j = k then v else s.reg j := Regs.get_set s.regs k j v

theorem State.reg_setReg_same (k : Fin 8) (v : Int) : (s.setReg k v).reg k = v := by simp

theorem State.reg_setReg_ne {k j : Fin 8} (h : j ≠ k) (v : Int) : (s.setReg k v).reg j = s.reg j := by simp [h]

/-! ### What reads through an update see -/

@[simp] theorem State.setA_reg (a : Addr) (j : Fin 8) : (s.setA a).reg j = s.reg j := rfl
@[simp] theorem State.setM_reg (m : BitVec 1) (j : Fin 8) : (s.setM m).reg j = s.reg j := rfl
@[simp] theorem State.setT_reg (t : Byte) (j : Fin 8) : (s.setT t).reg j = s.reg j := rfl
@[simp] theorem State.setPc_reg (a : Nat) (j : Fin 8) : (s.setPc a).reg j = s.reg j := rfl
@[simp] theorem State.setProg_reg (m : Memory) (j : Fin 8) : (s.setProg m).reg j = s.reg j := rfl
@[simp] theorem State.setData_reg (m : Memory) (j : Fin 8) : (s.setData m).reg j = s.reg j := rfl
@[simp] theorem State.setDisplay_reg (m : Memory) (j : Fin 8) : (s.setDisplay m).reg j = s.reg j := rfl
@[simp] theorem State.setRun_reg (r : RunState) (j : Fin 8) : (s.setRun r).reg j = s.reg j := rfl
@[simp] theorem State.setTimerOn_reg (b : Bool) (j : Fin 8) : (s.setTimerOn b).reg j = s.reg j := rfl
@[simp] theorem State.setTickCount_reg (n : Fin 60) (j : Fin 8) : (s.setTickCount n).reg j = s.reg j := rfl
@[simp] theorem State.setTickLatch_reg (t : Option Byte) (j : Fin 8) : (s.setTickLatch t).reg j = s.reg j := rfl
@[simp] theorem State.emit_reg (e : Event) (j : Fin 8) : (s.emit e).reg j = s.reg j := rfl
@[simp] theorem State.setCfg_reg (c : CoreConfig) (j : Fin 8) : (s.setCfg c).reg j = s.reg j := rfl
@[simp] theorem State.setDraws_reg (d : Draws) (j : Fin 8) : (s.setDraws d).reg j = s.reg j := rfl

@[simp] theorem State.setReg_progRead (k : Fin 8) (v : Int) (b : Int) : (s.setReg k v).progRead b = s.progRead b := rfl
@[simp] theorem State.setA_progRead (a : Addr) (b : Int) : (s.setA a).progRead b = s.progRead b := rfl
@[simp] theorem State.setM_progRead (m : BitVec 1) (b : Int) : (s.setM m).progRead b = s.progRead b := rfl
@[simp] theorem State.setT_progRead (t : Byte) (b : Int) : (s.setT t).progRead b = s.progRead b := rfl
@[simp] theorem State.setPc_progRead (a : Nat) (b : Int) : (s.setPc a).progRead b = s.progRead b := rfl
@[simp] theorem State.setData_progRead (m : Memory) (b : Int) : (s.setData m).progRead b = s.progRead b := rfl
@[simp] theorem State.setDisplay_progRead (m : Memory) (b : Int) : (s.setDisplay m).progRead b = s.progRead b := rfl
@[simp] theorem State.setRun_progRead (r : RunState) (b : Int) : (s.setRun r).progRead b = s.progRead b := rfl
@[simp] theorem State.setTimerOn_progRead (x : Bool) (b : Int) : (s.setTimerOn x).progRead b = s.progRead b := rfl
@[simp] theorem State.setTickCount_progRead (n : Fin 60) (b : Int) : (s.setTickCount n).progRead b = s.progRead b := rfl
@[simp] theorem State.setTickLatch_progRead (t : Option Byte) (b : Int) : (s.setTickLatch t).progRead b = s.progRead b := rfl
@[simp] theorem State.emit_progRead (e : Event) (b : Int) : (s.emit e).progRead b = s.progRead b := rfl
@[simp] theorem State.setCfg_progRead (c : CoreConfig) (b : Int) : (s.setCfg c).progRead b = s.progRead b := rfl
@[simp] theorem State.setDraws_progRead (d : Draws) (b : Int) : (s.setDraws d).progRead b = s.progRead b := rfl

@[simp] theorem State.setReg_dataRead (k : Fin 8) (v : Int) (b : Int) : (s.setReg k v).dataRead b = s.dataRead b := rfl
@[simp] theorem State.setA_dataRead (a : Addr) (b : Int) : (s.setA a).dataRead b = s.dataRead b := rfl
@[simp] theorem State.setM_dataRead (m : BitVec 1) (b : Int) : (s.setM m).dataRead b = s.dataRead b := rfl
@[simp] theorem State.setT_dataRead (t : Byte) (b : Int) : (s.setT t).dataRead b = s.dataRead b := rfl
@[simp] theorem State.setPc_dataRead (a : Nat) (b : Int) : (s.setPc a).dataRead b = s.dataRead b := rfl
@[simp] theorem State.setProg_dataRead (m : Memory) (b : Int) : (s.setProg m).dataRead b = s.dataRead b := rfl
@[simp] theorem State.setDisplay_dataRead (m : Memory) (b : Int) : (s.setDisplay m).dataRead b = s.dataRead b := rfl
@[simp] theorem State.setRun_dataRead (r : RunState) (b : Int) : (s.setRun r).dataRead b = s.dataRead b := rfl
@[simp] theorem State.setTimerOn_dataRead (x : Bool) (b : Int) : (s.setTimerOn x).dataRead b = s.dataRead b := rfl
@[simp] theorem State.setTickCount_dataRead (n : Fin 60) (b : Int) : (s.setTickCount n).dataRead b = s.dataRead b := rfl
@[simp] theorem State.setTickLatch_dataRead (t : Option Byte) (b : Int) : (s.setTickLatch t).dataRead b = s.dataRead b := rfl
@[simp] theorem State.emit_dataRead (e : Event) (b : Int) : (s.emit e).dataRead b = s.dataRead b := rfl
@[simp] theorem State.setCfg_dataRead (c : CoreConfig) (b : Int) : (s.setCfg c).dataRead b = s.dataRead b := rfl
@[simp] theorem State.setDraws_dataRead (d : Draws) (b : Int) : (s.setDraws d).dataRead b = s.dataRead b := rfl

@[simp] theorem State.setReg_displayRead (k : Fin 8) (v : Int) (col row : Int) : (s.setReg k v).displayRead col row = s.displayRead col row := rfl
@[simp] theorem State.setA_displayRead (a : Addr) (col row : Int) : (s.setA a).displayRead col row = s.displayRead col row := rfl
@[simp] theorem State.setM_displayRead (m : BitVec 1) (col row : Int) : (s.setM m).displayRead col row = s.displayRead col row := rfl
@[simp] theorem State.setT_displayRead (t : Byte) (col row : Int) : (s.setT t).displayRead col row = s.displayRead col row := rfl
@[simp] theorem State.setPc_displayRead (a : Nat) (col row : Int) : (s.setPc a).displayRead col row = s.displayRead col row := rfl
@[simp] theorem State.setProg_displayRead (m : Memory) (col row : Int) : (s.setProg m).displayRead col row = s.displayRead col row := rfl
@[simp] theorem State.setData_displayRead (m : Memory) (col row : Int) : (s.setData m).displayRead col row = s.displayRead col row := rfl
@[simp] theorem State.setRun_displayRead (r : RunState) (col row : Int) : (s.setRun r).displayRead col row = s.displayRead col row := rfl
@[simp] theorem State.setTimerOn_displayRead (b : Bool) (col row : Int) : (s.setTimerOn b).displayRead col row = s.displayRead col row := rfl
@[simp] theorem State.setTickCount_displayRead (n : Fin 60) (col row : Int) : (s.setTickCount n).displayRead col row = s.displayRead col row := rfl
@[simp] theorem State.setTickLatch_displayRead (t : Option Byte) (col row : Int) : (s.setTickLatch t).displayRead col row = s.displayRead col row := rfl
@[simp] theorem State.emit_displayRead (e : Event) (col row : Int) : (s.emit e).displayRead col row = s.displayRead col row := rfl
@[simp] theorem State.setCfg_displayRead (c : CoreConfig) (col row : Int) : (s.setCfg c).displayRead col row = s.displayRead col row := rfl
@[simp] theorem State.setDraws_displayRead (d : Draws) (col row : Int) : (s.setDraws d).displayRead col row = s.displayRead col row := rfl

@[simp] theorem State.setReg_cells (k : Fin 8) (v : Int) : (s.setReg k v).cells = s.cells := rfl
@[simp] theorem State.setA_cells (a : Addr) : (s.setA a).cells = s.cells := rfl
@[simp] theorem State.setM_cells (m : BitVec 1) : (s.setM m).cells = s.cells := rfl
@[simp] theorem State.setT_cells (t : Byte) : (s.setT t).cells = s.cells := rfl
@[simp] theorem State.setPc_cells (a : Nat) : (s.setPc a).cells = s.cells := rfl
@[simp] theorem State.setProg_cells (m : Memory) : (s.setProg m).cells = s.cells := rfl
@[simp] theorem State.setData_cells (m : Memory) : (s.setData m).cells = s.cells := rfl
@[simp] theorem State.setRun_cells (r : RunState) : (s.setRun r).cells = s.cells := rfl
@[simp] theorem State.setTimerOn_cells (b : Bool) : (s.setTimerOn b).cells = s.cells := rfl
@[simp] theorem State.setTickCount_cells (n : Fin 60) : (s.setTickCount n).cells = s.cells := rfl
@[simp] theorem State.setTickLatch_cells (t : Option Byte) : (s.setTickLatch t).cells = s.cells := rfl
@[simp] theorem State.emit_cells (e : Event) : (s.emit e).cells = s.cells := rfl
@[simp] theorem State.setCfg_cells (c : CoreConfig) : (s.setCfg c).cells = s.cells := rfl
@[simp] theorem State.setDraws_cells (d : Draws) : (s.setDraws d).cells = s.cells := rfl

end Sys2Proof.Machine
end

