-- ==== Sys2Proof/Laws/Memory.lean ====
section
/-! SUPPORT. Cells: read after write in every memory, and the canonical form every write keeps. -/

namespace Sys2Proof.Machine

/-! ### Reading -/

theorem Memory.read_cons (d : Int) (c : Nat × Int) (m : Memory) (b : Nat) :
    Memory.read d (c :: m) b = if c.1 = b then c.2 else Memory.read d m b := rfl

theorem Memory.read_erase (d : Int) (m : Memory) (a b : Nat) :
    Memory.read d (Memory.erase a m) b = if b = a then d else Memory.read d m b := by
  induction m with
  | nil => simp [Memory.erase, Memory.read]
  | cons c m ih =>
    rw [Memory.read_cons]
    unfold Memory.erase
    by_cases hc : c.1 = a
    · rw [if_pos hc, ih]
      split
      · rfl
      · rw [if_neg (by omega)]
    · rw [if_neg hc, Memory.read_cons, ih]
      by_cases hb : b = a
      · rw [if_neg (by omega), if_pos hb, if_pos hb]
      · rw [if_neg hb, if_neg hb]

/-- Inserting at an index that is not listed changes that index alone. -/
theorem Memory.read_insert (d : Int) (m : Memory) (a b : Nat) (v : Int) (h : ∀ c ∈ m, c.1 ≠ a) :
    Memory.read d (Memory.insert a v m) b = if b = a then v else Memory.read d m b := by
  induction m with
  | nil => simp only [Memory.insert, Memory.read_cons, eq_comm]
  | cons c m ih =>
    have hc : c.1 ≠ a := h c (by simp)
    have ih' := ih fun x hx => h x (by simp [hx])
    unfold Memory.insert
    split
    · simp only [Memory.read_cons, eq_comm]
    · rw [Memory.read_cons, Memory.read_cons, ih']
      by_cases hb : b = a
      · rw [if_neg (by omega), if_pos hb, if_pos hb]
      · rw [if_neg hb, if_neg hb]

theorem Memory.not_mem_erase (m : Memory) (a : Nat) : ∀ c ∈ Memory.erase a m, c.1 ≠ a := by
  induction m with
  | nil => simp [Memory.erase]
  | cons c m ih =>
    by_cases hc : c.1 = a
    · simpa [Memory.erase, hc] using ih
    · intro x hx
      rcases List.mem_cons.mp (by simpa [Memory.erase, hc] using hx) with rfl | h
      · exact hc
      · exact ih x h

/-- Read after write: the written index reads as the value, every other index as before. -/
theorem Memory.read_write (d : Int) (m : Memory) (a b : Nat) (v : Int) :
    Memory.read d (Memory.write d m a v) b = if b = a then v else Memory.read d m b := by
  unfold Memory.write
  split
  · rw [Memory.read_erase]; simp [*]
  · rw [Memory.read_insert d _ a b v (Memory.not_mem_erase m a), Memory.read_erase]
    by_cases hb : b = a <;> simp [hb]

/-! ### The canonical form -/

/-- The canonical form from an index is one from any lower index. -/
theorem Memory.wfFrom_mono {size : Nat} {d : Int} {m : Memory} {lo lo' : Nat} (hle : lo' ≤ lo)
    (h : Memory.wfFrom size d lo m = true) : Memory.wfFrom size d lo' m = true := by
  cases m with
  | nil => rfl
  | cons c m =>
    simp only [Memory.wfFrom, Bool.and_eq_true, decide_eq_true_eq] at h ⊢
    exact ⟨⟨⟨by omega, h.1.1.2⟩, h.1.2⟩, h.2⟩

theorem Memory.wfFrom_erase {size : Nat} {d : Int} {m : Memory} {lo : Nat} (a : Nat)
    (h : Memory.wfFrom size d lo m = true) : Memory.wfFrom size d lo (Memory.erase a m) = true := by
  induction m generalizing lo with
  | nil => rfl
  | cons c m ih =>
    simp only [Memory.wfFrom, Bool.and_eq_true, decide_eq_true_eq] at h
    unfold Memory.erase
    split
    · exact Memory.wfFrom_mono (by omega) (ih h.2)
    · simp only [Memory.wfFrom, Bool.and_eq_true, decide_eq_true_eq]
      exact ⟨h.1, ih h.2⟩

theorem Memory.wfFrom_insert {size : Nat} {d : Int} {m : Memory} {lo a : Nat} {v : Int}
    (h : Memory.wfFrom size d lo m = true) (hlo : lo ≤ a) (ha : a < size) (hv : v ≠ d) (hm : ∀ c ∈ m, c.1 ≠ a) :
    Memory.wfFrom size d lo (Memory.insert a v m) = true := by
  induction m generalizing lo with
  | nil => simp [Memory.insert, Memory.wfFrom, hlo, ha, hv]
  | cons c m ih =>
    simp only [Memory.wfFrom, Bool.and_eq_true, decide_eq_true_eq] at h
    have hc : c.1 ≠ a := hm c (by simp)
    unfold Memory.insert
    split
    · simp only [Memory.wfFrom, Bool.and_eq_true, decide_eq_true_eq]
      exact ⟨⟨⟨hlo, ha⟩, hv⟩, ⟨⟨by omega, h.1.1.2⟩, h.1.2⟩, h.2⟩
    · simp only [Memory.wfFrom, Bool.and_eq_true, decide_eq_true_eq]
      exact ⟨h.1, ih h.2 (by omega) fun x hx => hm x (by simp [hx])⟩

/-- Every memory write in range keeps the canonical form. -/
theorem Memory.wf_write {size : Nat} {d : Int} {m : Memory} {a : Nat} (v : Int)
    (h : Memory.wf size d m = true) (ha : a < size) : Memory.wf size d (Memory.write d m a v) = true := by
  unfold Memory.write
  split
  · exact Memory.wfFrom_erase a h
  · exact Memory.wfFrom_insert (Memory.wfFrom_erase a h) (Nat.zero_le a) ha ‹_› (Memory.not_mem_erase m a)

/-- What is listed in canonical form is what its index reads as, and lies below `size`. -/
theorem Memory.read_of_mem_wfFrom {size : Nat} {d : Int} {m : Memory} {lo : Nat} {c : Nat × Int}
    (h : Memory.wfFrom size d lo m = true) (hc : c ∈ m) : Memory.read d m c.1 = c.2 ∧ lo ≤ c.1 ∧ c.1 < size := by
  induction m generalizing lo with
  | nil => cases hc
  | cons e m ih =>
    simp only [Memory.wfFrom, Bool.and_eq_true, decide_eq_true_eq] at h
    rcases List.mem_cons.mp hc with rfl | hc
    · exact ⟨by simp [Memory.read], h.1.1.1, h.1.1.2⟩
    · obtain ⟨hr, hlo, hs⟩ := ih h.2 hc
      refine ⟨?_, by omega, hs⟩
      rw [Memory.read, if_neg (by omega), hr]

/-- What an index reads as is listed, or the value of unlisted indices. -/
theorem Memory.read_mem (d : Int) (m : Memory) (a : Nat) : Memory.read d m a = d ∨ (a, Memory.read d m a) ∈ m := by
  induction m with
  | nil => exact .inl rfl
  | cons c m ih =>
    unfold Memory.read
    split
    · rename_i h; subst h; exact .inr (by simp)
    · exact ih.imp id fun h => List.mem_cons_of_mem _ h

/-- The memories of the reset state are in canonical form. -/
theorem State.reset_memories_wf : Memory.wf 4096 0 State.reset.prog = true ∧
    Memory.wf 4096 0 State.reset.data = true ∧ Memory.wf 64 32 State.reset.display = true := ⟨rfl, rfl, rfl⟩

end Sys2Proof.Machine
end

