-- ==== Sys2Proof/Laws/Ops.lean ====
section
/-! SUPPORT. One spec lemma for each shared operation, and what each leaves unchanged. -/

namespace Sys2Proof.Machine

open Sys2Proof.Safety

variable (s : State)

/-! ### What the composite operations leave unchanged -/

@[simp] theorem State.enterHalted_regs (r : HaltReason) : (s.enterHalted r).regs = s.regs := rfl
@[simp] theorem State.enterHalted_A (r : HaltReason) : (s.enterHalted r).A = s.A := rfl
@[simp] theorem State.enterHalted_M (r : HaltReason) : (s.enterHalted r).M = s.M := rfl
@[simp] theorem State.enterHalted_T (r : HaltReason) : (s.enterHalted r).T = s.T := rfl
@[simp] theorem State.enterHalted_pc (r : HaltReason) : (s.enterHalted r).pc = s.pc := rfl
@[simp] theorem State.enterHalted_prog (r : HaltReason) : (s.enterHalted r).prog = s.prog := rfl
@[simp] theorem State.enterHalted_data (r : HaltReason) : (s.enterHalted r).data = s.data := rfl
@[simp] theorem State.enterHalted_display (r : HaltReason) : (s.enterHalted r).display = s.display := rfl
@[simp] theorem State.enterHalted_timerOn (r : HaltReason) : (s.enterHalted r).timerOn = s.timerOn := rfl
@[simp] theorem State.enterHalted_tickCount (r : HaltReason) : (s.enterHalted r).tickCount = s.tickCount := rfl
@[simp] theorem State.enterHalted_tickLatch (r : HaltReason) : (s.enterHalted r).tickLatch = s.tickLatch := rfl
@[simp] theorem State.enterHalted_cfg (r : HaltReason) : (s.enterHalted r).cfg = s.cfg := rfl
@[simp] theorem State.enterHalted_draws (r : HaltReason) : (s.enterHalted r).draws = s.draws := rfl
@[simp] theorem State.enterHalted_reg (r : HaltReason) (j : Fin 8) : (s.enterHalted r).reg j = s.reg j := rfl
@[simp] theorem State.enterHalted_progRead (r : HaltReason) (b : Int) : (s.enterHalted r).progRead b = s.progRead b := rfl
@[simp] theorem State.enterHalted_dataRead (r : HaltReason) (b : Int) : (s.enterHalted r).dataRead b = s.dataRead b := rfl
@[simp] theorem State.enterHalted_displayRead (r : HaltReason) (col row : Int) : (s.enterHalted r).displayRead col row = s.displayRead col row := rfl
@[simp] theorem State.enterHalted_cells (r : HaltReason) : (s.enterHalted r).cells = s.cells := rfl

@[simp] theorem State.takeFault_regs (f : FatalFault) : (s.takeFault f).regs = s.regs := rfl
@[simp] theorem State.takeFault_A (f : FatalFault) : (s.takeFault f).A = s.A := rfl
@[simp] theorem State.takeFault_M (f : FatalFault) : (s.takeFault f).M = s.M := rfl
@[simp] theorem State.takeFault_T (f : FatalFault) : (s.takeFault f).T = s.T := rfl
@[simp] theorem State.takeFault_pc (f : FatalFault) : (s.takeFault f).pc = s.pc := rfl
@[simp] theorem State.takeFault_prog (f : FatalFault) : (s.takeFault f).prog = s.prog := rfl
@[simp] theorem State.takeFault_data (f : FatalFault) : (s.takeFault f).data = s.data := rfl
@[simp] theorem State.takeFault_display (f : FatalFault) : (s.takeFault f).display = s.display := rfl
@[simp] theorem State.takeFault_timerOn (f : FatalFault) : (s.takeFault f).timerOn = s.timerOn := rfl
@[simp] theorem State.takeFault_tickCount (f : FatalFault) : (s.takeFault f).tickCount = s.tickCount := rfl
@[simp] theorem State.takeFault_tickLatch (f : FatalFault) : (s.takeFault f).tickLatch = s.tickLatch := rfl
@[simp] theorem State.takeFault_cfg (f : FatalFault) : (s.takeFault f).cfg = s.cfg := rfl
@[simp] theorem State.takeFault_draws (f : FatalFault) : (s.takeFault f).draws = s.draws := rfl
@[simp] theorem State.takeFault_reg (f : FatalFault) (j : Fin 8) : (s.takeFault f).reg j = s.reg j := rfl
@[simp] theorem State.takeFault_progRead (f : FatalFault) (b : Int) : (s.takeFault f).progRead b = s.progRead b := rfl
@[simp] theorem State.takeFault_dataRead (f : FatalFault) (b : Int) : (s.takeFault f).dataRead b = s.dataRead b := rfl
@[simp] theorem State.takeFault_displayRead (f : FatalFault) (col row : Int) : (s.takeFault f).displayRead col row = s.displayRead col row := rfl
@[simp] theorem State.takeFault_cells (f : FatalFault) : (s.takeFault f).cells = s.cells := rfl

@[simp] theorem State.moveTo_regs (x : Nat) : (s.moveTo x).regs = s.regs := by unfold State.moveTo; split <;> rfl
@[simp] theorem State.moveTo_A (x : Nat) : (s.moveTo x).A = s.A := by unfold State.moveTo; split <;> rfl
@[simp] theorem State.moveTo_M (x : Nat) : (s.moveTo x).M = s.M := by unfold State.moveTo; split <;> rfl
@[simp] theorem State.moveTo_T (x : Nat) : (s.moveTo x).T = s.T := by unfold State.moveTo; split <;> rfl
@[simp] theorem State.moveTo_prog (x : Nat) : (s.moveTo x).prog = s.prog := by unfold State.moveTo; split <;> rfl
@[simp] theorem State.moveTo_data (x : Nat) : (s.moveTo x).data = s.data := by unfold State.moveTo; split <;> rfl
@[simp] theorem State.moveTo_display (x : Nat) : (s.moveTo x).display = s.display := by unfold State.moveTo; split <;> rfl
@[simp] theorem State.moveTo_timerOn (x : Nat) : (s.moveTo x).timerOn = s.timerOn := by unfold State.moveTo; split <;> rfl
@[simp] theorem State.moveTo_tickCount (x : Nat) : (s.moveTo x).tickCount = s.tickCount := by unfold State.moveTo; split <;> rfl
@[simp] theorem State.moveTo_tickLatch (x : Nat) : (s.moveTo x).tickLatch = s.tickLatch := by unfold State.moveTo; split <;> rfl
@[simp] theorem State.moveTo_cfg (x : Nat) : (s.moveTo x).cfg = s.cfg := by unfold State.moveTo; split <;> rfl
@[simp] theorem State.moveTo_draws (x : Nat) : (s.moveTo x).draws = s.draws := by unfold State.moveTo; split <;> rfl
@[simp] theorem State.moveTo_reg (x : Nat) (j : Fin 8) : (s.moveTo x).reg j = s.reg j := by unfold State.moveTo; split <;> rfl
@[simp] theorem State.moveTo_progRead (x : Nat) (b : Int) : (s.moveTo x).progRead b = s.progRead b := by unfold State.moveTo; split <;> rfl
@[simp] theorem State.moveTo_dataRead (x : Nat) (b : Int) : (s.moveTo x).dataRead b = s.dataRead b := by unfold State.moveTo; split <;> rfl
@[simp] theorem State.moveTo_displayRead (x : Nat) (col row : Int) : (s.moveTo x).displayRead col row = s.displayRead col row := by unfold State.moveTo; split <;> rfl
@[simp] theorem State.moveTo_cells (x : Nat) : (s.moveTo x).cells = s.cells := by unfold State.moveTo; split <;> rfl

@[simp] theorem State.dataWrite_regs (x v : Int) : (s.dataWrite x v).regs = s.regs := by unfold State.dataWrite; split <;> rfl
@[simp] theorem State.dataWrite_A (x v : Int) : (s.dataWrite x v).A = s.A := by unfold State.dataWrite; split <;> rfl
@[simp] theorem State.dataWrite_M (x v : Int) : (s.dataWrite x v).M = s.M := by unfold State.dataWrite; split <;> rfl
@[simp] theorem State.dataWrite_T (x v : Int) : (s.dataWrite x v).T = s.T := by unfold State.dataWrite; split <;> rfl
@[simp] theorem State.dataWrite_pc (x v : Int) : (s.dataWrite x v).pc = s.pc := by unfold State.dataWrite; split <;> rfl
@[simp] theorem State.dataWrite_prog (x v : Int) : (s.dataWrite x v).prog = s.prog := by unfold State.dataWrite; split <;> rfl
@[simp] theorem State.dataWrite_display (x v : Int) : (s.dataWrite x v).display = s.display := by unfold State.dataWrite; split <;> rfl
@[simp] theorem State.dataWrite_run (x v : Int) : (s.dataWrite x v).run = s.run := by unfold State.dataWrite; split <;> rfl
@[simp] theorem State.dataWrite_timerOn (x v : Int) : (s.dataWrite x v).timerOn = s.timerOn := by unfold State.dataWrite; split <;> rfl
@[simp] theorem State.dataWrite_tickCount (x v : Int) : (s.dataWrite x v).tickCount = s.tickCount := by unfold State.dataWrite; split <;> rfl
@[simp] theorem State.dataWrite_tickLatch (x v : Int) : (s.dataWrite x v).tickLatch = s.tickLatch := by unfold State.dataWrite; split <;> rfl
@[simp] theorem State.dataWrite_out (x v : Int) : (s.dataWrite x v).out = s.out := by unfold State.dataWrite; split <;> rfl
@[simp] theorem State.dataWrite_cfg (x v : Int) : (s.dataWrite x v).cfg = s.cfg := by unfold State.dataWrite; split <;> rfl
@[simp] theorem State.dataWrite_draws (x v : Int) : (s.dataWrite x v).draws = s.draws := by unfold State.dataWrite; split <;> rfl
@[simp] theorem State.dataWrite_reg (x v : Int) (j : Fin 8) : (s.dataWrite x v).reg j = s.reg j := by unfold State.dataWrite; split <;> rfl
@[simp] theorem State.dataWrite_progRead (x v : Int) (b : Int) : (s.dataWrite x v).progRead b = s.progRead b := by unfold State.dataWrite; split <;> rfl
@[simp] theorem State.dataWrite_displayRead (x v : Int) (col row : Int) : (s.dataWrite x v).displayRead col row = s.displayRead col row := by unfold State.dataWrite; split <;> rfl
@[simp] theorem State.dataWrite_cells (x v : Int) : (s.dataWrite x v).cells = s.cells := by unfold State.dataWrite; split <;> rfl

@[simp] theorem State.memWrite_regs (x v : Int) : (s.memWrite x v).regs = s.regs := by unfold State.memWrite State.progWrite State.dataWrite; (repeat' split) <;> rfl
@[simp] theorem State.memWrite_A (x v : Int) : (s.memWrite x v).A = s.A := by unfold State.memWrite State.progWrite State.dataWrite; (repeat' split) <;> rfl
@[simp] theorem State.memWrite_M (x v : Int) : (s.memWrite x v).M = s.M := by unfold State.memWrite State.progWrite State.dataWrite; (repeat' split) <;> rfl
@[simp] theorem State.memWrite_T (x v : Int) : (s.memWrite x v).T = s.T := by unfold State.memWrite State.progWrite State.dataWrite; (repeat' split) <;> rfl
@[simp] theorem State.memWrite_pc (x v : Int) : (s.memWrite x v).pc = s.pc := by unfold State.memWrite State.progWrite State.dataWrite; (repeat' split) <;> rfl
@[simp] theorem State.memWrite_display (x v : Int) : (s.memWrite x v).display = s.display := by unfold State.memWrite State.progWrite State.dataWrite; (repeat' split) <;> rfl
@[simp] theorem State.memWrite_run (x v : Int) : (s.memWrite x v).run = s.run := by unfold State.memWrite State.progWrite State.dataWrite; (repeat' split) <;> rfl
@[simp] theorem State.memWrite_timerOn (x v : Int) : (s.memWrite x v).timerOn = s.timerOn := by unfold State.memWrite State.progWrite State.dataWrite; (repeat' split) <;> rfl
@[simp] theorem State.memWrite_tickCount (x v : Int) : (s.memWrite x v).tickCount = s.tickCount := by unfold State.memWrite State.progWrite State.dataWrite; (repeat' split) <;> rfl
@[simp] theorem State.memWrite_tickLatch (x v : Int) : (s.memWrite x v).tickLatch = s.tickLatch := by unfold State.memWrite State.progWrite State.dataWrite; (repeat' split) <;> rfl
@[simp] theorem State.memWrite_out (x v : Int) : (s.memWrite x v).out = s.out := by unfold State.memWrite State.progWrite State.dataWrite; (repeat' split) <;> rfl
@[simp] theorem State.memWrite_cfg (x v : Int) : (s.memWrite x v).cfg = s.cfg := by unfold State.memWrite State.progWrite State.dataWrite; (repeat' split) <;> rfl
@[simp] theorem State.memWrite_draws (x v : Int) : (s.memWrite x v).draws = s.draws := by unfold State.memWrite State.progWrite State.dataWrite; (repeat' split) <;> rfl
@[simp] theorem State.memWrite_reg (x v : Int) (j : Fin 8) : (s.memWrite x v).reg j = s.reg j := by unfold State.memWrite State.progWrite State.dataWrite; (repeat' split) <;> rfl
@[simp] theorem State.memWrite_displayRead (x v : Int) (col row : Int) : (s.memWrite x v).displayRead col row = s.displayRead col row := by unfold State.memWrite State.progWrite State.dataWrite; (repeat' split) <;> rfl
@[simp] theorem State.memWrite_cells (x v : Int) : (s.memWrite x v).cells = s.cells := by unfold State.memWrite State.progWrite State.dataWrite; (repeat' split) <;> rfl

@[simp] theorem State.displayWrite_regs (x y v : Int) : (s.displayWrite x y v).regs = s.regs := by unfold State.displayWrite; split <;> rfl
@[simp] theorem State.displayWrite_A (x y v : Int) : (s.displayWrite x y v).A = s.A := by unfold State.displayWrite; split <;> rfl
@[simp] theorem State.displayWrite_M (x y v : Int) : (s.displayWrite x y v).M = s.M := by unfold State.displayWrite; split <;> rfl
@[simp] theorem State.displayWrite_T (x y v : Int) : (s.displayWrite x y v).T = s.T := by unfold State.displayWrite; split <;> rfl
@[simp] theorem State.displayWrite_pc (x y v : Int) : (s.displayWrite x y v).pc = s.pc := by unfold State.displayWrite; split <;> rfl
@[simp] theorem State.displayWrite_prog (x y v : Int) : (s.displayWrite x y v).prog = s.prog := by unfold State.displayWrite; split <;> rfl
@[simp] theorem State.displayWrite_data (x y v : Int) : (s.displayWrite x y v).data = s.data := by unfold State.displayWrite; split <;> rfl
@[simp] theorem State.displayWrite_run (x y v : Int) : (s.displayWrite x y v).run = s.run := by unfold State.displayWrite; split <;> rfl
@[simp] theorem State.displayWrite_timerOn (x y v : Int) : (s.displayWrite x y v).timerOn = s.timerOn := by unfold State.displayWrite; split <;> rfl
@[simp] theorem State.displayWrite_tickCount (x y v : Int) : (s.displayWrite x y v).tickCount = s.tickCount := by unfold State.displayWrite; split <;> rfl
@[simp] theorem State.displayWrite_tickLatch (x y v : Int) : (s.displayWrite x y v).tickLatch = s.tickLatch := by unfold State.displayWrite; split <;> rfl
@[simp] theorem State.displayWrite_out (x y v : Int) : (s.displayWrite x y v).out = s.out := by unfold State.displayWrite; split <;> rfl
@[simp] theorem State.displayWrite_cfg (x y v : Int) : (s.displayWrite x y v).cfg = s.cfg := by unfold State.displayWrite; split <;> rfl
@[simp] theorem State.displayWrite_draws (x y v : Int) : (s.displayWrite x y v).draws = s.draws := by unfold State.displayWrite; split <;> rfl
@[simp] theorem State.displayWrite_reg (x y v : Int) (j : Fin 8) : (s.displayWrite x y v).reg j = s.reg j := by unfold State.displayWrite; split <;> rfl
@[simp] theorem State.displayWrite_progRead (x y v : Int) (b : Int) : (s.displayWrite x y v).progRead b = s.progRead b := by unfold State.displayWrite; split <;> rfl
@[simp] theorem State.displayWrite_dataRead (x y v : Int) (b : Int) : (s.displayWrite x y v).dataRead b = s.dataRead b := by unfold State.displayWrite; split <;> rfl

@[simp] theorem State.tookTurn_regs : s.tookTurn.regs = s.regs := by unfold State.tookTurn; split <;> rfl
@[simp] theorem State.tookTurn_A : s.tookTurn.A = s.A := by unfold State.tookTurn; split <;> rfl
@[simp] theorem State.tookTurn_M : s.tookTurn.M = s.M := by unfold State.tookTurn; split <;> rfl
@[simp] theorem State.tookTurn_T : s.tookTurn.T = s.T := by unfold State.tookTurn; split <;> rfl
@[simp] theorem State.tookTurn_pc : s.tookTurn.pc = s.pc := by unfold State.tookTurn; split <;> rfl
@[simp] theorem State.tookTurn_prog : s.tookTurn.prog = s.prog := by unfold State.tookTurn; split <;> rfl
@[simp] theorem State.tookTurn_data : s.tookTurn.data = s.data := by unfold State.tookTurn; split <;> rfl
@[simp] theorem State.tookTurn_display : s.tookTurn.display = s.display := by unfold State.tookTurn; split <;> rfl
@[simp] theorem State.tookTurn_run : s.tookTurn.run = s.run := by unfold State.tookTurn; split <;> rfl
@[simp] theorem State.tookTurn_timerOn : s.tookTurn.timerOn = s.timerOn := by unfold State.tookTurn; split <;> rfl
@[simp] theorem State.tookTurn_tickCount : s.tookTurn.tickCount = s.tickCount := by unfold State.tookTurn; split <;> rfl
@[simp] theorem State.tookTurn_tickLatch : s.tookTurn.tickLatch = s.tickLatch := by unfold State.tookTurn; split <;> rfl
@[simp] theorem State.tookTurn_out : s.tookTurn.out = s.out := by unfold State.tookTurn; split <;> rfl
@[simp] theorem State.tookTurn_cfg : s.tookTurn.cfg = s.cfg := by unfold State.tookTurn; split <;> rfl
@[simp] theorem State.tookTurn_reg  (j : Fin 8) : s.tookTurn.reg j = s.reg j := by unfold State.tookTurn; split <;> rfl
@[simp] theorem State.tookTurn_progRead  (b : Int) : s.tookTurn.progRead b = s.progRead b := by unfold State.tookTurn; split <;> rfl
@[simp] theorem State.tookTurn_dataRead  (b : Int) : s.tookTurn.dataRead b = s.dataRead b := by unfold State.tookTurn; split <;> rfl
@[simp] theorem State.tookTurn_displayRead  (col row : Int) : s.tookTurn.displayRead col row = s.displayRead col row := by unfold State.tookTurn; split <;> rfl
@[simp] theorem State.tookTurn_cells : s.tookTurn.cells = s.cells := by unfold State.tookTurn; split <;> rfl

@[simp] theorem State.tookKey_regs : s.tookKey.regs = s.regs := by unfold State.tookKey; split <;> rfl
@[simp] theorem State.tookKey_A : s.tookKey.A = s.A := by unfold State.tookKey; split <;> rfl
@[simp] theorem State.tookKey_M : s.tookKey.M = s.M := by unfold State.tookKey; split <;> rfl
@[simp] theorem State.tookKey_T : s.tookKey.T = s.T := by unfold State.tookKey; split <;> rfl
@[simp] theorem State.tookKey_pc : s.tookKey.pc = s.pc := by unfold State.tookKey; split <;> rfl
@[simp] theorem State.tookKey_prog : s.tookKey.prog = s.prog := by unfold State.tookKey; split <;> rfl
@[simp] theorem State.tookKey_data : s.tookKey.data = s.data := by unfold State.tookKey; split <;> rfl
@[simp] theorem State.tookKey_display : s.tookKey.display = s.display := by unfold State.tookKey; split <;> rfl
@[simp] theorem State.tookKey_run : s.tookKey.run = s.run := by unfold State.tookKey; split <;> rfl
@[simp] theorem State.tookKey_timerOn : s.tookKey.timerOn = s.timerOn := by unfold State.tookKey; split <;> rfl
@[simp] theorem State.tookKey_tickCount : s.tookKey.tickCount = s.tickCount := by unfold State.tookKey; split <;> rfl
@[simp] theorem State.tookKey_tickLatch : s.tookKey.tickLatch = s.tickLatch := by unfold State.tookKey; split <;> rfl
@[simp] theorem State.tookKey_out : s.tookKey.out = s.out := by unfold State.tookKey; split <;> rfl
@[simp] theorem State.tookKey_cfg : s.tookKey.cfg = s.cfg := by unfold State.tookKey; split <;> rfl
@[simp] theorem State.tookKey_reg  (j : Fin 8) : s.tookKey.reg j = s.reg j := by unfold State.tookKey; split <;> rfl
@[simp] theorem State.tookKey_progRead  (b : Int) : s.tookKey.progRead b = s.progRead b := by unfold State.tookKey; split <;> rfl
@[simp] theorem State.tookKey_dataRead  (b : Int) : s.tookKey.dataRead b = s.dataRead b := by unfold State.tookKey; split <;> rfl
@[simp] theorem State.tookKey_displayRead  (col row : Int) : s.tookKey.displayRead col row = s.displayRead col row := by unfold State.tookKey; split <;> rfl
@[simp] theorem State.tookKey_cells : s.tookKey.cells = s.cells := by unfold State.tookKey; split <;> rfl

@[simp] theorem State.tookBaseTen_regs (v : Int) : (s.tookBaseTen v).regs = s.regs := by unfold State.tookBaseTen; split <;> rfl
@[simp] theorem State.tookBaseTen_A (v : Int) : (s.tookBaseTen v).A = s.A := by unfold State.tookBaseTen; split <;> rfl
@[simp] theorem State.tookBaseTen_M (v : Int) : (s.tookBaseTen v).M = s.M := by unfold State.tookBaseTen; split <;> rfl
@[simp] theorem State.tookBaseTen_T (v : Int) : (s.tookBaseTen v).T = s.T := by unfold State.tookBaseTen; split <;> rfl
@[simp] theorem State.tookBaseTen_pc (v : Int) : (s.tookBaseTen v).pc = s.pc := by unfold State.tookBaseTen; split <;> rfl
@[simp] theorem State.tookBaseTen_prog (v : Int) : (s.tookBaseTen v).prog = s.prog := by unfold State.tookBaseTen; split <;> rfl
@[simp] theorem State.tookBaseTen_data (v : Int) : (s.tookBaseTen v).data = s.data := by unfold State.tookBaseTen; split <;> rfl
@[simp] theorem State.tookBaseTen_display (v : Int) : (s.tookBaseTen v).display = s.display := by unfold State.tookBaseTen; split <;> rfl
@[simp] theorem State.tookBaseTen_run (v : Int) : (s.tookBaseTen v).run = s.run := by unfold State.tookBaseTen; split <;> rfl
@[simp] theorem State.tookBaseTen_timerOn (v : Int) : (s.tookBaseTen v).timerOn = s.timerOn := by unfold State.tookBaseTen; split <;> rfl
@[simp] theorem State.tookBaseTen_tickCount (v : Int) : (s.tookBaseTen v).tickCount = s.tickCount := by unfold State.tookBaseTen; split <;> rfl
@[simp] theorem State.tookBaseTen_tickLatch (v : Int) : (s.tookBaseTen v).tickLatch = s.tickLatch := by unfold State.tookBaseTen; split <;> rfl
@[simp] theorem State.tookBaseTen_out (v : Int) : (s.tookBaseTen v).out = s.out := by unfold State.tookBaseTen; split <;> rfl
@[simp] theorem State.tookBaseTen_cfg (v : Int) : (s.tookBaseTen v).cfg = s.cfg := by unfold State.tookBaseTen; split <;> rfl
@[simp] theorem State.tookBaseTen_reg (v : Int) (j : Fin 8) : (s.tookBaseTen v).reg j = s.reg j := by unfold State.tookBaseTen; split <;> rfl
@[simp] theorem State.tookBaseTen_progRead (v : Int) (b : Int) : (s.tookBaseTen v).progRead b = s.progRead b := by unfold State.tookBaseTen; split <;> rfl
@[simp] theorem State.tookBaseTen_dataRead (v : Int) (b : Int) : (s.tookBaseTen v).dataRead b = s.dataRead b := by unfold State.tookBaseTen; split <;> rfl
@[simp] theorem State.tookBaseTen_displayRead (v : Int) (col row : Int) : (s.tookBaseTen v).displayRead col row = s.displayRead col row := by unfold State.tookBaseTen; split <;> rfl
@[simp] theorem State.tookBaseTen_cells (v : Int) : (s.tookBaseTen v).cells = s.cells := by unfold State.tookBaseTen; split <;> rfl

@[simp] theorem State.enterHalted_run (r : HaltReason) : (s.enterHalted r).run = .halted r := rfl
@[simp] theorem State.enterHalted_out (r : HaltReason) : (s.enterHalted r).out = s.out ++ [.render s.cells] := rfl
@[simp] theorem State.takeFault_run (f : FatalFault) : (s.takeFault f).run = .halted (.fault f) := rfl
theorem State.takeFault_out (f : FatalFault) :
    (s.takeFault f).out = s.out ++ [.faultReport s.pc (s.progRead s.pc) f, .render s.cells] := by
  show s.out ++ _ ++ _ = _
  simp
@[simp] theorem State.moveTo_pc (x : Nat) : (s.moveTo x).pc = x := by unfold State.moveTo; split <;> rfl

/-! ### Frames from equal fields -/

/-- Equal fields read equal: a frame needs only the fields. -/
theorem Part.same_of_fields {s t : State} (p : Part)
    (h : match p with
      | .regs => t.regs = s.regs
      | .addr => t.A = s.A
      | .mode => t.M = s.M
      | .countdown => t.T = s.T
      | .prog => t.prog = s.prog
      | .data => t.data = s.data
      | .display => t.display = s.display
      | .timer => t.timerOn = s.timerOn ∧ t.tickCount = s.tickCount ∧ t.tickLatch = s.tickLatch
      | .config => t.cfg = s.cfg
      | .draws => t.draws = s.draws) : p.Same s t := by
  cases p <;> simp_all [Part.Same, State.reg, State.progRead, State.dataRead, State.displayRead]

/-- A fault taken is what R200 says. -/
theorem State.takeFault_taken (f : FatalFault) : FaultTaken f s (s.takeFault f) :=
  ⟨by simp, by simp, s.takeFault_out f, fun p _ => by cases p <;> simp [Part.Same]⟩

/-! ### The end of an instruction -/

/-- Moving pc completes an instruction as R42 and R44 say. -/
theorem State.moveTo_completed (u : State) (x : Nat) (evs : List Event) (hr : u.run = s.run)
    (ho : u.out = s.out ++ evs) : CompletedAt x evs s (u.moveTo x) := by
  refine ⟨by simp, fun h => ?_, fun h => ?_⟩
  · rw [State.moveTo, if_neg (by omega)]; exact ⟨hr, ho⟩
  · rw [State.moveTo, if_pos h]
    refine ⟨rfl, ?_⟩
    rw [State.enterHalted_out, State.enterHalted_cells]
    show u.out ++ _ = _
    rw [ho]

/-- The advance phase always answers a next state. -/
theorem finish_eq (u : PcUpdate) : finish u s = .next (s.moveTo (u.target s.pc)) := rfl

@[simp] theorem PcUpdate.target_seq (n pc : Nat) : (PcUpdate.seq n).target pc = pc + 1 + n := rfl
@[simp] theorem PcUpdate.target_jump (a pc : Nat) : (PcUpdate.jump a).target pc = a := rfl

/-! ### Register fields -/

theorem regField_toNat (k : Fin 8) : (regField k).toNat = k.val := by
  simp only [regField, BitVec.toNat_ofNat]; omega

/-- A field that names a register is that register. -/
@[simp] theorem withReg_regField (f : OperandField) (r : Fin 8) (k : Fin 8 → Host.Outcome State Fault Refusal) :
    withReg f (regField r) s k = k r := by
  have h : (regField r).toNat < 8 := by rw [regField_toNat]; exact r.isLt
  rw [withReg, dif_pos h]
  congr 1
  exact Fin.ext (regField_toNat r)

/-- A field that names none takes INVALID_REGISTER. -/
theorem withReg_bad {f : OperandField} {i : Nibble} (h : 8 ≤ i.toNat) (k : Fin 8 → Host.Outcome State Fault Refusal) :
    withReg f i s k = .next (s.takeFault (.invalidRegister f i)) := by
  rw [withReg, dif_neg (by omega)]; rfl

/-- Every field is a register's or bad. -/
theorem eq_regField_or_bad (i : Nibble) : (∃ r, i = regField r) ∨ 8 ≤ i.toNat := by
  by_cases h : i.toNat < 8
  · refine .inl ⟨⟨i.toNat, h⟩, BitVec.eq_of_toNat_eq ?_⟩
    rw [regField_toNat]
  · exact .inr (by omega)

/-- Inversion: a checked field answers with the fault, or as the continuation does at the register. -/
theorem withReg_cases {f : OperandField} {i : Nibble} {k : Fin 8 → Host.Outcome State Fault Refusal}
    {o : Host.Outcome State Fault Refusal} (h : withReg f i s k = o) :
    (8 ≤ i.toNat ∧ o = .next (s.takeFault (.invalidRegister f i))) ∨ ∃ r, i = regField r ∧ k r = o := by
  rcases eq_regField_or_bad i with ⟨r, rfl⟩ | hb
  · exact .inr ⟨r, rfl, by simpa using h⟩
  · exact .inl ⟨hb, by rw [← h, withReg_bad s hb]⟩

/-! ### Stores -/

theorem State.progRead_outside {a : Int} (h : a < 0 ∨ 4095 < a) : s.progRead a = 0 := by
  rw [State.progRead, if_neg (by omega)]

theorem State.dataRead_outside {a : Int} (h : a < 0 ∨ 4095 < a) : s.dataRead a = 0 := by
  rw [State.dataRead, if_neg (by omega)]

/-- Writing cell `x` of the program store. -/
theorem State.setProg_write_read {x : Int} (h0 : 0 ≤ x) (h1 : x ≤ 4095) (v b : Int) :
    (s.setProg (Memory.write 0 s.prog x.toNat v)).progRead b = if b = x then v else s.progRead b := by
  unfold State.progRead
  simp only [State.setProg_prog, Memory.read_write]
  by_cases hb : b = x
  · subst hb; simp [h0, h1]
  · have : ∀ (_ : 0 ≤ b), b.toNat ≠ x.toNat := fun _ => by omega
    rw [if_neg hb]
    split
    · rw [if_neg (this (by omega))]
    · rfl

/-- Writing cell `x` of the data store. -/
theorem State.setData_write_read {x : Int} (h0 : 0 ≤ x) (h1 : x ≤ 4095) (v b : Int) :
    (s.setData (Memory.write 0 s.data x.toNat v)).dataRead b = if b = x then v else s.dataRead b := by
  unfold State.dataRead
  simp only [State.setData_data, Memory.read_write]
  by_cases hb : b = x
  · subst hb; simp [h0, h1]
  · have : ∀ (_ : 0 ≤ b), b.toNat ≠ x.toNat := fun _ => by omega
    rw [if_neg hb]
    split
    · rw [if_neg (this (by omega))]
    · rfl

/-- All a write through M does to the data store. -/
theorem State.memWrite_dataRead (x v b : Int) : (s.memWrite x v).dataRead b =
    if s.M = 0 ∧ 0 ≤ x ∧ x ≤ 4095 ∧ b = x then v else s.dataRead b := by
  have hM : s.M = 0 ∨ s.M = 1 := by have := s.M.isLt; rcases s.M with ⟨⟨_ | _ | n, h⟩⟩ <;> first | (left; rfl) | (right; rfl) | omega
  unfold State.memWrite
  rcases hM with hM | hM
  · simp only [hM, show ¬ ((0 : BitVec 1) = 1) by decide, if_false, true_and, State.dataWrite]
    split
    · rw [s.setData_write_read (by omega) (by omega)]
      by_cases hb : b = x <;> simp [*]
    · rw [if_neg (by omega)]
  · simp only [hM, if_true, show ¬ ((1 : BitVec 1) = 0) by decide, false_and, if_false, State.progWrite]
    split <;> rfl

/-- All a write through M does to the program store. -/
theorem State.memWrite_progRead (x v b : Int) : (s.memWrite x v).progRead b =
    if s.M = 1 ∧ s.cfg.romWritable = true ∧ 0 ≤ x ∧ x ≤ 4095 ∧ b = x then v else s.progRead b := by
  unfold State.memWrite State.progWrite State.dataWrite
  by_cases hM : s.M = 1
  · simp only [hM, if_true, true_and]
    split
    · rw [s.setProg_write_read (by omega) (by omega)]
      by_cases hb : b = x <;> simp [*]
    · rw [if_neg (by tauto)]
  · simp only [hM, if_false, false_and]
    split <;> rfl

/-- All a write to the display does. -/
theorem State.displayWrite_read (c r v c' r' : Int) (h : 0 ≤ c ∧ c ≤ 7 ∧ 0 ≤ r ∧ r ≤ 7) :
    (s.displayWrite c r v).displayRead c' r' = if c' = c ∧ r' = r then v else s.displayRead c' r' := by
  rw [State.displayWrite, if_pos h]
  unfold State.displayRead
  simp only [State.setDisplay_display, Memory.read_write]
  by_cases hb : c' = c ∧ r' = r
  · obtain ⟨rfl, rfl⟩ := hb; simp [h]
  · rw [if_neg hb]
    split
    · rw [if_neg (by omega)]
    · rfl

/-! ### Every memory operation keeps the canonical form -/

theorem State.dataWrite_wf (x v : Int) (h : Memory.wf 4096 0 s.data = true) :
    Memory.wf 4096 0 (s.dataWrite x v).data = true := by
  unfold State.dataWrite
  split
  · exact Memory.wf_write v h (by omega)
  · exact h

theorem State.progWrite_wf (x v : Int) (h : Memory.wf 4096 0 s.prog = true) :
    Memory.wf 4096 0 (s.progWrite x v).1.prog = true := by
  unfold State.progWrite
  split
  · exact Memory.wf_write v h (by omega)
  · exact h

theorem State.memWrite_wf (x v : Int) (hp : Memory.wf 4096 0 s.prog = true) (hd : Memory.wf 4096 0 s.data = true) :
    Memory.wf 4096 0 (s.memWrite x v).prog = true ∧ Memory.wf 4096 0 (s.memWrite x v).data = true := by
  unfold State.memWrite
  split
  · exact ⟨s.progWrite_wf x v hp, by unfold State.progWrite; split <;> exact hd⟩
  · exact ⟨by unfold State.dataWrite; split <;> exact hp, s.dataWrite_wf x v hd⟩

theorem State.displayWrite_wf (c r v : Int) (h : Memory.wf 64 32 s.display = true) :
    Memory.wf 64 32 (s.displayWrite c r v).display = true := by
  unfold State.displayWrite
  split
  · exact Memory.wf_write v h (by omega)
  · exact h

/-! ### The width of a finite realisation -/

theorem fitsBits_iff {n : Nat} {v : Int} :
    fitsBits n v = true ↔ -((2 ^ n : Nat) : Int) ≤ 2 * v ∧ 2 * v < ((2 ^ n : Nat) : Int) := by simp [fitsBits]

@[simp] theorem fitsBits_zero (n : Nat) : fitsBits n 0 = true := by
  rw [fitsBits_iff]
  have := Nat.two_pow_pos n
  omega

/-- `n` bits hold every register exactly when they hold each one. -/
theorem Regs.fits_iff (n : Nat) (g : Regs) : g.fits n = true ↔ ∀ k, fitsBits n (g.get k) = true := by
  constructor
  · intro h k
    simp only [Regs.fits, List.all_cons, List.all_nil, Bool.and_true, Bool.and_eq_true] at h
    obtain ⟨h0, h1, h2, h3, h4, h5, h6, h7⟩ := h
    match k with
    | 0 => exact h0
    | 1 => exact h1
    | 2 => exact h2
    | 3 => exact h3
    | 4 => exact h4
    | 5 => exact h5
    | 6 => exact h6
    | 7 => exact h7
  · intro h
    simp only [Regs.fits, List.all_cons, List.all_nil, Bool.and_true, Bool.and_eq_true]
    exact ⟨h 0, h 1, h 2, h 3, h 4, h 5, h 6, h 7⟩

/-- `n` bits hold what any index reads as, when they hold every word listed. -/
theorem Memory.fits_read {n : Nat} {m : Memory} (h : m.fits n = true) (a : Nat) :
    fitsBits n (Memory.read 0 m a) = true := by
  rcases Memory.read_mem 0 m a with h0 | hm
  · rw [h0]; exact fitsBits_zero n
  · exact List.all_eq_true.mp h _ hm

/-- In canonical form, `n` bits hold every word listed when they hold what every index reads as. -/
theorem Memory.fits_of_read {n size : Nat} {m : Memory} (hw : Memory.wf size 0 m = true)
    (h : ∀ a, a < size → fitsBits n (Memory.read 0 m a) = true) : m.fits n = true := by
  refine List.all_eq_true.mpr fun c hc => ?_
  obtain ⟨hr, _, hs⟩ := Memory.read_of_mem_wfFrom hw hc
  rw [← hr]
  exact h c.1 hs

/-- An unbounded REG_WIDTH holds everything. -/
theorem State.fits_of_none (h : s.cfg.regWidth = none) : s.fits = true := by simp [State.fits, h]

/-- A finite REG_WIDTH holds what it holds of the registers and of both stores. -/
theorem State.fits_some {n : Nat} (h : s.cfg.regWidth = some n) :
    s.fits = true ↔ s.regs.fits n = true ∧ s.prog.fits n = true ∧ s.data.fits n = true := by
  simp [State.fits, h, and_assoc]

/-- The range depends on the registers, the stores and the configuration alone. -/
theorem State.fits_congr {s t : State} (hr : t.regs = s.regs) (hp : t.prog = s.prog) (hd : t.data = s.data)
    (hc : t.cfg = s.cfg) : t.fits = s.fits := by simp only [State.fits, hr, hp, hd, hc]

/-- The guard on a transition that keeps the configuration: it lets the transition pass or faults, and the latter only
where REG_WIDTH is finite. -/
theorem State.guardWidth_next {t : State} (hc : t.cfg = s.cfg) :
    (s.fits = true ∧ t.fits = true ∧ s.guardWidth (.next t) = .next t) ∨
    ((s.fits = false ∨ t.fits = false) ∧ s.cfg.regWidth ≠ none ∧ s.guardWidth (.next t) = .fault .widthExceeded) := by
  have hn : s.cfg.regWidth = none → s.fits = true ∧ t.fits = true := fun h =>
    ⟨s.fits_of_none h, t.fits_of_none (hc ▸ h)⟩
  unfold State.guardWidth
  cases hs : s.fits <;> cases ht : t.fits <;> simp_all

/-- What the guard lets pass is the transition's own next state. -/
theorem State.eq_of_guardWidth {s t : State} {o : Host.Outcome State Fault Refusal} (h : s.guardWidth o = .next t) :
    o = .next t := by
  unfold State.guardWidth at h
  split at h
  · split at h
    · split at h
      · exact h
      · cases h
    · cases h
    · cases h
  · cases h

/-! ### Draws -/

theorem State.tookBaseTen_draws_in {v : Int} (h : 0 ≤ v ∧ v ≤ 999) : s.tookBaseTen v = s := if_pos h

end Sys2Proof.Machine
end

