-- ==== Sys2Proof/Laws/Exec.lean ====
section
/-! SUPPORT. Inversion: everything exec can answer, once for all proofs (R40, R200). -/

namespace Sys2Proof.Machine

open Sys2Proof.Safety

/-- What instruction `i` does when it raises no fault. -/
def Performs (i : Instr) (s t : State) : Prop :=
  match i with
  | .halt => t = s.enterHalted .zeroWord
  | .store x imm => ∃ rx, x = regField rx ∧ t = (s.setReg rx (zext imm)).moveTo (s.pc + 1)
  | .add x y z => ∃ rx ry rz, x = regField rx ∧ y = regField ry ∧ z = regField rz ∧
      t = (s.setReg rz (s.reg rx + s.reg ry)).moveTo (s.pc + 1)
  | .subtract x y z => ∃ rx ry rz, x = regField rx ∧ y = regField ry ∧ z = regField rz ∧
      t = (s.setReg rz (s.reg rx - s.reg ry)).moveTo (s.pc + 1)
  | .read x => ∃ rx, x = regField rx ∧ t = (s.setReg rx (s.memRead (s.addr 0))).moveTo (s.pc + 1)
  | .write x => ∃ rx, x = regField rx ∧ t = (s.memWrite (s.addr 0) (s.reg rx)).moveTo (s.pc + 1)
  | .jump a => a.toNat % 2 = 0 ∧ t = s.moveTo a.toNat
  | .readKeyboard x => ∃ rx, x = regField rx ∧
      t = (((s.emit .prompt).tookKey).setReg rx (zext s.nextKey)).moveTo (s.pc + 1)
  | .switchMemory => t = (s.setM (1 - s.M)).moveTo (s.pc + 1)
  | .skipEqual x y => ∃ rx ry, x = regField rx ∧ y = regField ry ∧
      t = s.moveTo (if s.reg rx = s.reg ry then s.pc + 2 else s.pc + 1)
  | .skipNotEqual x y => ∃ rx ry, x = regField rx ∧ y = regField ry ∧
      t = s.moveTo (if s.reg rx = s.reg ry then s.pc + 1 else s.pc + 2)
  | .setA imm => t = (s.setA imm).moveTo (s.pc + 1)
  | .setT imm => t = (s.setT imm).moveTo (s.pc + 1)
  | .readT x => ∃ rx, x = regField rx ∧ t = (s.setReg rx (zext s.T)).moveTo (s.pc + 1)
  | .convertToBaseTen x => ∃ rx, x = regField rx ∧
      t = ((((s.tookBaseTen (s.reg rx)).memWrite (s.addr 0) (s.baseTen (s.reg rx)).1).memWrite (s.addr 1)
        (s.baseTen (s.reg rx)).2.1).memWrite (s.addr 2) (s.baseTen (s.reg rx)).2.2).moveTo (s.pc + 1)
  | .convertByteToAscii x y => ∃ rx ry, x = regField rx ∧ y = regField ry ∧ 0 ≤ s.reg rx ∧ s.reg rx ≤ 15 ∧
      t = (s.setReg ry (asciiOfDigit (s.reg rx))).moveTo (s.pc + 1)
  | .draw x row col => ∃ rx, x = regField rx ∧ 0 ≤ s.reg rx ∧ s.reg rx ≤ 127 ∧ row.toNat ≤ 7 ∧ col.toNat ≤ 7 ∧
      t = (s.displayWrite (zext col) (zext row) (s.reg rx)).moveTo (s.pc + 1)

/-- exec answers a next state, in which a fatal fault is taken or the instruction has performed. -/
theorem exec_cases (i : Instr) (s : State) :
    ∃ t, exec i s = .next t ∧ ((∃ f, t = s.takeFault f) ∨ Performs i s t) := by
  have bad : ∀ (f : OperandField) (n : Nibble) (k : Fin 8 → Host.Outcome State Fault Refusal) (P : State → Prop),
      (∀ r, n = regField r → ∃ t, k r = .next t ∧ ((∃ g, t = s.takeFault g) ∨ P t)) →
      ∃ t, withReg f n s k = .next t ∧ ((∃ g, t = s.takeFault g) ∨ P t) := by
    intro f n k P h
    rcases eq_regField_or_bad n with ⟨r, rfl⟩ | hb
    · simpa using h r rfl
    · exact ⟨_, withReg_bad s hb k, .inl ⟨_, rfl⟩⟩
  cases i with
  | halt => exact ⟨_, rfl, .inr rfl⟩
  | store x imm =>
    simp only [exec, execStore]
    exact bad _ _ _ (Performs (.store x imm) s) fun rx hx => ⟨_, rfl, .inr ⟨rx, hx, rfl⟩⟩
  | add x y z =>
    simp only [exec, execAdd]
    exact bad _ _ _ (Performs (.add x y z) s) fun rx hx => bad _ _ _ _ fun ry hy => bad _ _ _ _ fun rz hz =>
      ⟨_, rfl, .inr ⟨rx, ry, rz, hx, hy, hz, rfl⟩⟩
  | subtract x y z =>
    simp only [exec, execSubtract]
    exact bad _ _ _ (Performs (.subtract x y z) s) fun rx hx => bad _ _ _ _ fun ry hy => bad _ _ _ _ fun rz hz =>
      ⟨_, rfl, .inr ⟨rx, ry, rz, hx, hy, hz, rfl⟩⟩
  | read x =>
    simp only [exec, execRead]
    exact bad _ _ _ (Performs (.read x) s) fun rx hx => ⟨_, rfl, .inr ⟨rx, hx, rfl⟩⟩
  | write x =>
    simp only [exec, execWrite]
    refine bad _ _ _ (Performs (.write x) s) fun rx hx => ⟨_, rfl, .inr ⟨rx, hx, ?_⟩⟩
    simp
  | jump a =>
    simp only [exec, execJump]
    split
    · exact ⟨_, rfl, .inl ⟨_, rfl⟩⟩
    · exact ⟨_, rfl, .inr ⟨by omega, rfl⟩⟩
  | readKeyboard x =>
    simp only [exec, execReadKeyboard]
    refine bad _ _ _ (Performs (.readKeyboard x) s) fun rx hx => ⟨_, rfl, .inr ⟨rx, hx, ?_⟩⟩
    simp
  | switchMemory => exact ⟨_, rfl, .inr rfl⟩
  | skipEqual x y =>
    simp only [exec, execSkipEqual]
    refine bad _ _ _ (Performs (.skipEqual x y) s) fun rx hx => bad _ _ _ _ fun ry hy =>
      ⟨_, rfl, .inr ⟨rx, ry, hx, hy, ?_⟩⟩
    by_cases h : s.reg rx = s.reg ry <;> simp [skipIf, conditionEqual, h]
  | skipNotEqual x y =>
    simp only [exec, execSkipNotEqual]
    refine bad _ _ _ (Performs (.skipNotEqual x y) s) fun rx hx => bad _ _ _ _ fun ry hy =>
      ⟨_, rfl, .inr ⟨rx, ry, hx, hy, ?_⟩⟩
    by_cases h : s.reg rx = s.reg ry <;> simp [skipIf, conditionNotEqual, h]
  | setA imm => exact ⟨_, rfl, .inr rfl⟩
  | setT imm => exact ⟨_, rfl, .inr rfl⟩
  | readT x =>
    simp only [exec, execReadT]
    exact bad _ _ _ (Performs (.readT x) s) fun rx hx => ⟨_, rfl, .inr ⟨rx, hx, rfl⟩⟩
  | convertToBaseTen x =>
    simp only [exec, execConvertToBaseTen]
    refine bad _ _ _ (Performs (.convertToBaseTen x) s) fun rx hx => ⟨_, rfl, .inr ⟨rx, hx, ?_⟩⟩
    simp
  | convertByteToAscii x y =>
    simp only [exec, execConvertByteToAscii]
    refine bad _ _ _ (Performs (.convertByteToAscii x y) s) fun rx hx => bad _ _ _ _ fun ry hy => ?_
    split
    · exact ⟨_, rfl, .inl ⟨_, rfl⟩⟩
    · exact ⟨_, rfl, .inr ⟨rx, ry, hx, hy, by omega, by omega, rfl⟩⟩
  | draw x row col =>
    simp only [exec, execDraw]
    refine bad _ _ _ (Performs (.draw x row col) s) fun rx hx => ?_
    split
    · exact ⟨_, rfl, .inl ⟨_, rfl⟩⟩
    · split
      · exact ⟨_, rfl, .inl ⟨_, rfl⟩⟩
      · split
        · exact ⟨_, rfl, .inl ⟨_, rfl⟩⟩
        · refine ⟨_, rfl, .inr ⟨rx, hx, by omega, by omega, by omega, by omega, ?_⟩⟩
          simp

/-- The inversion in the form proofs cite. -/
theorem exec_next {i : Instr} {s t : State} (h : exec i s = .next t) : (∃ f, t = s.takeFault f) ∨ Performs i s t := by
  obtain ⟨t', h', hc⟩ := exec_cases i s
  rw [h] at h'
  cases h'
  exact hc

/-- A fault or a performance keeps the configuration (R27). -/
theorem exec_cfg {i : Instr} {s t : State} (h : exec i s = .next t) : t.cfg = s.cfg := by
  rcases exec_next h with ⟨f, rfl⟩ | hp
  · rfl
  · cases i <;> simp only [Performs] at hp
    case halt | switchMemory | setA | setT => subst hp; simp
    case jump => obtain ⟨_, rfl⟩ := hp; simp
    case store | read | write | readKeyboard | readT | convertToBaseTen => obtain ⟨_, _, rfl⟩ := hp; simp
    case skipEqual | skipNotEqual => obtain ⟨_, _, _, _, rfl⟩ := hp; simp
    case add | subtract | convertByteToAscii | draw => obtain ⟨_, _, _, _, _, _, rfl⟩ := hp; simp

/-- The Engine's transition on unbounded integers always answers a next state, of the same configuration. -/
theorem engineRun_next (s : State) : ∃ t, engineRun s = .next t ∧ t.cfg = s.cfg := by
  unfold engineRun
  split
  · exact ⟨_, rfl, rfl⟩
  · split
    · exact ⟨_, rfl, rfl⟩
    · obtain ⟨t, h, _⟩ := exec_cases ‹_› (s.emit (.log s.pc s.fetch))
      exact ⟨t, h, by simpa using exec_cfg h⟩

/-- The Engine's step: its turn passes when it is halted; else it answers what its transition does, or the width fault,
and never the latter where REG_WIDTH is unbounded (D2). -/
theorem engineStep_spec (s : State) :
    (s.run ≠ .running ∧ engineStep s = .next s) ∨
    ∃ t, s.run = .running ∧ engineRun s = .next t ∧ t.cfg = s.cfg ∧
      ((s.fits = true ∧ t.fits = true ∧ engineStep s = .next t) ∨
        ((s.fits = false ∨ t.fits = false) ∧ s.cfg.regWidth ≠ none ∧ engineStep s = .fault .widthExceeded)) := by
  by_cases hr : s.run = .running
  · obtain ⟨t, h, hc⟩ := engineRun_next s
    refine .inr ⟨t, hr, h, hc, ?_⟩
    rw [engineStep, if_pos hr, h]
    rcases s.guardWidth_next hc with h | h
    · exact .inl h
    · exact .inr h
  · exact .inl ⟨hr, if_neg hr⟩

/-- The Engine's step answers a next state: unchanged when halted, the zero-word halt, the unknown-instruction fault, or
the decoded instruction after its log entry. -/
theorem engineStep_cases {s t : State} (h : engineStep s = .next t) :
    (s.run ≠ .running ∧ t = s) ∨
    (s.run = .running ∧ s.fetch = 0 ∧ t = s.enterHalted .zeroWord) ∨
    (s.run = .running ∧ s.fetch ≠ 0 ∧ (s.fetch < 0 ∨ 0xFFFF < s.fetch) ∧
      t = s.takeFault (.unknownInstruction s.fetch)) ∨
    (s.run = .running ∧ s.fetch ≠ 0 ∧ ∃ i, decodeStoreWord s.fetch = .ok i ∧
      exec i (s.emit (.log s.pc s.fetch)) = .next t) := by
  unfold engineStep at h
  split at h
  · rename_i hr
    replace h := State.eq_of_guardWidth h
    unfold engineRun at h
    split at h
    · rename_i h0
      cases h
      exact .inr (.inl ⟨hr, h0, rfl⟩)
    · rename_i h0
      split at h
      · rename_i w hd
        unfold decodeStoreWord at hd
        split at hd
        · cases hd
        · cases hd
          cases h
          exact .inr (.inr (.inl ⟨hr, h0, by omega, rfl⟩))
      · rename_i i hd
        exact .inr (.inr (.inr ⟨hr, h0, i, hd, h⟩))
  · rename_i hr
    cases h
    exact .inl ⟨hr, rfl⟩

/-- The step's inversion: the turn is consumed, then the agent whose turn it was moves. -/
theorem step_cases {s t : State} (h : step s = .next t) :
    (s.nextTurn = .engine ∧ engineStep s.tookTurn = .next t) ∨
    (s.nextTurn = .timer ∧ t = timerStep s.tookTurn) ∨
    (∃ c, s.nextTurn = .host c ∧ t = hostStep c s.tookTurn) := by
  unfold step at h
  split at h
  · exact .inl ⟨‹_›, h⟩
  · cases h; exact .inr (.inl ⟨‹_›, rfl⟩)
  · cases h; exact .inr (.inr ⟨_, ‹_›, rfl⟩)

end Sys2Proof.Machine
end

