-- ==== Sys2Proof/Laws/PerInstr.lean ====
section
/-! SUPPORT. One statement for each instruction as syntax: its encoding carries the opcode digit of R91's map. -/

namespace Sys2Proof.Laws.Opcode

open Sys2Proof

/-- The leading digit of each instruction (R91); the zero word's is 0 (R93). -/
def digit : Instr → Nibble
  | .halt => 0x0 | .store _ _ => 0x0 | .add _ _ _ => 0x1 | .subtract _ _ _ => 0x2 | .read _ => 0x3 | .write _ => 0x4
  | .jump _ => 0x5 | .readKeyboard _ => 0x6 | .switchMemory => 0x7 | .skipEqual _ _ => 0x8 | .skipNotEqual _ _ => 0x9
  | .setA _ => 0xA | .setT _ => 0xB | .readT _ => 0xC | .convertToBaseTen _ => 0xD | .convertByteToAscii _ _ => 0xE
  | .draw _ _ _ => 0xF

/-- The encoder writes the instruction's own opcode digit. -/
def Statement (i : Instr) : Prop := (encode i).op = digit i

theorem halt : Statement .halt := rfl
theorem store (x : Nibble) (imm : Byte) : Statement (.store x imm) := op_append_byte _ x imm
theorem add (x y z : Nibble) : Statement (.add x y z) := op_append4 _ x y z
theorem subtract (x y z : Nibble) : Statement (.subtract x y z) := op_append4 _ x y z
theorem read (x : Nibble) : Statement (.read x) := op_append_byte _ x _
theorem write (x : Nibble) : Statement (.write x) := op_append_byte _ x _
theorem jump (target : Addr) : Statement (.jump target) := op_append_addr _ target
theorem readKeyboard (x : Nibble) : Statement (.readKeyboard x) := op_append_byte _ x _
theorem switchMemory : Statement .switchMemory := rfl
theorem skipEqual (x y : Nibble) : Statement (.skipEqual x y) := op_append4 _ x y _
theorem skipNotEqual (x y : Nibble) : Statement (.skipNotEqual x y) := op_append4 _ x y _
theorem setA (imm : Addr) : Statement (.setA imm) := op_append_addr _ imm
theorem setT (imm : Byte) : Statement (.setT imm) := op_append_byte _ _ imm
theorem readT (x : Nibble) : Statement (.readT x) := op_append_byte _ x _
theorem convertToBaseTen (x : Nibble) : Statement (.convertToBaseTen x) := op_append_byte _ x _
theorem convertByteToAscii (x y : Nibble) : Statement (.convertByteToAscii x y) := op_append4 _ x y _
theorem draw (x row col : Nibble) : Statement (.draw x row col) := op_append4 _ x row col

end Sys2Proof.Laws.Opcode
end

