-- ==== Sys2Proof/Tests/Slice0.lean ====
section
/-! SUPPORT. Tests whose expected results are the spec's own vectors (spec/95_test_vectors.md, named A1, M5, …), the
well-formedness smoke test, and a witness for the hypotheses of each obligation. -/

namespace Sys2Proof.Tests

open Sys2Proof Sys2Proof.Machine Sys2Proof.Safety

/-- The state a step leaves; the state itself where the step stops. -/
def after (s : State) : State :=
  match step s with
  | .next t => t
  | .fault _ => s
  | .refused _ => s

/-- Reset with the store word `w` at address `a`, pc there, the next turn the Engine's. -/
def at_ (a : Nat) (w : Int) : State := (State.reset.setPc a).placeWord w

/-- The same at address 0. -/
def start (w : Int) : State := at_ 0 w

/-- `s` with the program store writable. -/
def writable (s : State) : State := s.configure true

/-- `s` with the turn taken by `u`. -/
def turnOf (u : Turn) (s : State) : State := s.setDraws { s.draws with turns := [u] }

/-- `s` with split ticks. -/
def split (s : State) : State := s.setCfg { s.cfg with timerTickAtomic := false }

/-- `s` with registers and store words `n` bits wide. -/
def wide (n : Nat) (s : State) : State := s.setCfg { s.cfg with regWidth := some n }

/-! ### Well-formedness: the one check refuses its one ill-formed term (R93) -/

theorem test_wellFormed_refuses_store_r0_zero : (Instr.store 0 0).wellFormed = false := by decide
theorem test_wellFormed_accepts_neighbours :
    (Instr.store 1 0).wellFormed = true ∧ (Instr.store 0 1).wellFormed = true ∧ Instr.halt.wellFormed = true := by decide

/-! ### Decoding: each pattern of R91 written out bit by bit -/

theorem test_decode_halt : decode 0b0000000000000000 = .halt := by decide
theorem test_decode_store : decode 0b0000011111111111 = .store 7 0xFF := by decide
theorem test_decode_add : decode 0b0001000010011000 = .add 0 9 8 := by decide
theorem test_decode_subtract : decode 0b0010000000010011 = .subtract 0 1 3 := by decide
theorem test_decode_read : decode 0b0011000111111111 = .read 1 := by decide
theorem test_decode_write : decode 0b0100001000000000 = .write 2 := by decide
theorem test_decode_jump : decode 0b0101000000000011 = .jump 3 := by decide
theorem test_decode_readKeyboard : decode 0b0110001100000000 = .readKeyboard 3 := by decide
theorem test_decode_switchMemory : decode 0b0111101010111100 = .switchMemory := by decide
theorem test_decode_skipEqual : decode 0b1000000000101111 = .skipEqual 0 2 := by decide
theorem test_decode_skipNotEqual : decode 0b1001100011110000 = .skipNotEqual 8 15 := by decide
theorem test_decode_setA : decode 0b1010111111111111 = .setA 4095 := by decide
theorem test_decode_setT : decode 0b1011111100001010 = .setT 10 := by decide
theorem test_decode_readT : decode 0b1100010100000000 = .readT 5 := by decide
theorem test_decode_convertToBaseTen : decode 0b1101011000000000 = .convertToBaseTen 6 := by decide
theorem test_decode_convertByteToAscii : decode 0b1110001000111111 = .convertByteToAscii 2 3 := by decide
theorem test_decode_draw : decode 0b1111001100010010 = .draw 3 1 2 := by decide
theorem test_decodeTableWord : decodeTableWord 16 0x1012 = some (.add 0 1 2) ∧ decodeTableWord 16 0 = some .halt ∧
    decodeTableWord 8 0x12 = some (.store 0 0x12) ∧ decodeTableWord 17 0x1FFFF = none := by decide
theorem test_decodeStoreWord_rejects : decodeStoreWord (-1) = .error (.unknownInstruction (-1)) ∧
    decodeStoreWord 70000 = .error (.unknownInstruction 70000) := ⟨rfl, rfl⟩

/-! ### Register and ALU family -/

/-- A2. -/
theorem test_A2_store : (after (start 0x07FF)).reg 7 = 255 ∧ (after (start 0x07FF)).pc = 1 := by decide
/-- A5. -/
theorem test_A5_store_r8 : (after (start 0x0812)).run = .halted (.fault (.invalidRegister .X 8)) ∧
    (after (start 0x0812)).pc = 0 := by decide
/-- A7. -/
theorem test_A7_add : (after ((start 0x1111).setReg 1 255)).reg 1 = 510 := by decide
/-- A9: Y is reported before Z. -/
theorem test_A9_add : (after (start 0x1098)).run = .halted (.fault (.invalidRegister .Y 9)) := by decide
/-- A13. -/
theorem test_A13_subtract : (after (((start 0x2013).setReg 0 5).setReg 1 7)).reg 3 = -2 := by decide
/-- A12. -/
theorem test_A12_subtract : (after ((start 0x2555).setReg 5 77)).reg 5 = 0 := by decide
/-- A15, A19 and the two ends of each digit range. -/
theorem test_A15_ascii : (after ((start 0xE010).setReg 0 15)).reg 1 = 70 ∧ (after (start 0xE010)).reg 1 = 48 ∧
    (after ((start 0xE010).setReg 0 9)).reg 1 = 57 ∧ (after ((start 0xE010).setReg 0 10)).reg 1 = 65 := by decide
/-- A17, A18, A20. -/
theorem test_A17_ascii_faults :
    (after ((start 0xE010).setReg 0 16)).run =
      .halted (.fault (.operandOutOfRange .convertByteToAscii (.source 0) 16)) ∧
    (after ((start 0xE010).setReg 0 (-1))).run =
      .halted (.fault (.operandOutOfRange .convertByteToAscii (.source 0) (-1))) ∧
    (after ((start 0xE090).setReg 0 20)).run = .halted (.fault (.invalidRegister .Y 9)) := by decide

/-! ### Memory family -/

/-- M2: the program's own word. -/
theorem test_M2_read : (after (((start 0x3100).setM 1).setA 0)).reg 1 = 0x3100 := by decide
/-- M6: a negative data word reads back. -/
theorem test_M6_write_read :
    (after ((((after (((start 0x4000).setA 16).setReg 0 (-7))).placeWord 0x3100).setRun .running))).reg 1 = -7 := by decide
/-- M7: a refused program-store write. -/
theorem test_M7_write : (after ((((start 0x4000).setM 1).setA 2).setReg 0 255)).progRead 2 = 0 ∧
    (after ((((start 0x4000).setM 1).setA 2).setReg 0 255)).pc = 1 := by decide
/-- M8: the same, writable. -/
theorem test_M8_write : (after (writable ((((start 0x4000).setM 1).setA 2).setReg 0 255))).progRead 2 = 255 := by decide
/-- M9. -/
theorem test_M9_switch : (after (start 0x7000)).M = 1 ∧ (after ((start 0x7ABC).setM 1)).M = 0 := by decide
/-- M10. -/
theorem test_M10_setA : (after (start 0xAFFF)).A = 4095 ∧ (after (start 0xA064)).A = 100 := by decide
/-- M11. -/
theorem test_M11_baseTen :
    [16, 17, 18].map (after (((start 0xD000).setA 16).setReg 0 255)).dataRead = [2, 5, 5] := by decide
/-- M17: the third write is dropped, and address 0 is untouched. -/
theorem test_M17_baseTen : [4094, 4095, 4096, 0].map (after (((start 0xD000).setA 4094).setReg 0 123)).dataRead =
    [1, 2, 0, 0] := by decide

/-! ### Control family -/

/-- J3. -/
theorem test_J3_jump : (after (start 0x5FFE)).pc = 4094 := by decide
/-- J2. -/
theorem test_J2_jump : (after (at_ 4 0x5003)).run = .halted (.fault (.invalidJumpTarget 3)) ∧
    (after (at_ 4 0x5003)).pc = 4 := by decide
/-- S2, S3, S5. -/
theorem test_S2_skipEqual : (after (((at_ 10 0x8010).setReg 0 5).setReg 1 6)).pc = 11 ∧
    (after (((start 0x8010).setReg 0 (-1)).setReg 1 255)).pc = 1 := by decide
theorem test_S5_skipEqual : (after (at_ 4095 0x8010)).pc = 4097 ∧
    (after (at_ 4095 0x8010)).run = .halted .pcExhausted := by decide
/-- S6, S7. -/
theorem test_S6_skipNotEqual : (after ((at_ 2 0x9010).setReg 0 3)).pc = 4 ∧
    (after (((at_ 2 0x9010).setReg 0 3).setReg 1 3)).pc = 3 := by decide
/-- S9. -/
theorem test_S9_skipNotEqual : (after (start 0x98F0)).run = .halted (.fault (.invalidRegister .X 8)) := by decide

/-! ### Input/output family -/

/-- K1, K2, K3 under the reference conversion. -/
theorem test_K1_readKeyboard : (after ((start 0x6300).answerLine ['2', 'a'])).reg 3 = 42 ∧
    (after (((start 0x6300).setReg 3 9).answerLine [])).reg 3 = 0 ∧
    (after (((start 0x6300).setReg 3 9).answerLine ['z', 'z'])).reg 3 = 0 := by decide
/-- K1's events, K4: no prompt before the register fault. -/
theorem test_K4_readKeyboard : (after ((start 0x6300).answerKey 42)).out = [.log 0 0x6300, .prompt] ∧
    Event.prompt ∉ (after (start 0x6800)).out := by decide
/-- D2, D3. -/
theorem test_D2_draw : (after ((start 0xF312).setReg 3 55)).displayRead 2 1 = 55 ∧
    (after ((start 0xF077).setReg 0 127)).cells[63]? = some 127 := by decide
/-- D4, D6, D7, D8, D9. -/
theorem test_D4_draw_faults :
    (after ((start 0xF000).setReg 0 128)).run = .halted (.fault (.operandOutOfRange .draw (.source 0) 128)) ∧
    (after ((start 0xF000).setReg 0 (-1))).run = .halted (.fault (.operandOutOfRange .draw (.source 0) (-1))) ∧
    (after ((start 0xF080).setReg 0 65)).run = .halted (.fault (.operandOutOfRange .draw .row 8)) ∧
    (after ((start 0xF008).setReg 0 65)).run = .halted (.fault (.operandOutOfRange .draw .column 8)) ∧
    (after ((start 0xF088).setReg 0 200)).run = .halted (.fault (.operandOutOfRange .draw (.source 0) 200)) := by decide

/-! ### Timer family -/

/-- T2, T3. -/
theorem test_T2_setT : (after (start 0xBF0A)).T = 10 ∧ (after ((start 0xB000).setT 9)).T = 0 := by decide
/-- T4, T11. -/
theorem test_T4_readT : (after ((start 0xC000).setT 5)).reg 0 = 5 ∧
    (after (start 0xC800)).run = .halted (.fault (.invalidRegister .X 8)) := by decide
/-- T5, T6. -/
theorem test_T5_tick : (after (turnOf .timer (State.reset.setT 5))).T = 4 ∧
    (after (turnOf .timer (State.reset.setT 5))).tickCount = 1 ∧ (after (turnOf .timer State.reset)).T = 0 := by decide
/-- T7. -/
theorem test_T7_tick : (after (turnOf .timer ((State.reset.setT 3).setTickCount 59))).T = 2 ∧
    (after (turnOf .timer ((State.reset.setT 3).setTickCount 59))).tickCount = 0 ∧
    (after (turnOf .timer (State.reset.setTickCount 59))).out = [.render (List.replicate 64 32)] := by decide
/-- T9: with split ticks the SET_T is lost. -/
theorem test_T9_split_tick : (timerStep ((timerStep ((split State.reset).setT 5)).setT 100)).T = 4 := by decide
/-- T10: with atomic ticks, either order. -/
theorem test_T10_atomic_tick :
    (timerStep ((State.reset.setT 5).setT 100)).T = 99 ∧ ((timerStep (State.reset.setT 5)).setT 100).T = 100 := by decide

/-! ### Engine, load, text -/

/-- E1, E2: no Log event. -/
theorem test_E1_unknown : (after (at_ 5 70000)).run = .halted (.fault (.unknownInstruction 70000)) ∧
    (after (at_ 5 (-1))).out =
      [.faultReport 5 (-1) (.unknownInstruction (-1)), .render (List.replicate 64 32)] := by decide
/-- E3. -/
theorem test_E3_zero_word : (after (at_ 7 0)).run = .halted .zeroWord ∧ (after (at_ 7 0)).pc = 7 ∧
    (after (at_ 7 0)).out = [.render (List.replicate 64 32)] := by decide
/-- E4. -/
theorem test_E4_exhausted : (after (at_ 4095 0x0105)).reg 1 = 5 ∧ (after (at_ 4095 0x0105)).pc = 4096 ∧
    (after (at_ 4095 0x0105)).run = .halted .pcExhausted := by decide
/-- P5's fault: log, report and final render, in that order. -/
theorem test_P5_fault_events : (after ((at_ 1 0xF000).setReg 0 200)).out =
    [.log 1 0xF000, .faultReport 1 0xF000 (.operandOutOfRange .draw (.source 0) 200), .render (List.replicate 64 32)] := by
  decide
/-- E6. -/
theorem test_E6_load : (State.reset.load [0x12, 0x34, 0x56]).progRead 0 = 0x1234 ∧
    (State.reset.load [0x12, 0x34, 0x56]).progRead 1 = 0 := by decide
/-- R201's code numbers. -/
theorem test_fault_codes : (FatalFault.unknownInstruction 70000).code = 1 ∧ (FatalFault.invalidJumpTarget 3).code = 2 ∧
    (FatalFault.operandOutOfRange .draw .row 8).code = 3 ∧ (FatalFault.invalidRegister .X 8).code = 4 := by decide
/-- R97, R224. -/
theorem test_text_forms : wordText 0x0A9F = ['0', 'A', '9', 'F'] ∧ renderChar 72 = 'H' ∧ renderChar 127 = '?' ∧
    renderChar 31 = '?' := by decide
/-- R98, on the line of vector A6. -/
theorem test_asm_text : asmText (.add 0 1 2) = "ADD r0, r1, r2" ∧ asmText .switchMemory = "SWITCH_MEMORY" := by decide
/-- D2: in 20 bits the greatest value is 524287, and a sum above it or a difference below −524288 faults, not wraps. -/
theorem test_finite_width_faults :
    step (wide 20 (((start 0x1011).setReg 0 524287).setReg 1 1)) = .fault .widthExceeded ∧
    step (wide 20 (((start 0x2011).setReg 0 (-524288)).setReg 1 1)) = .fault .widthExceeded ∧
    (after (wide 20 (((start 0x1011).setReg 0 524286).setReg 1 1))).reg 1 = 524287 := ⟨rfl, rfl, by decide⟩
/-- D2: 16 bits do not hold the word 0xC000, so its first Engine step faults; WRITE to an unwritable store changes nothing. -/
theorem test_finite_width_load : step (wide 16 (start 0xC000)) = .fault .widthExceeded ∧
    (after (wide 16 (start 0x4000))).pc = 1 := ⟨rfl, by decide⟩
/-- The host's question: every opcode's word, placed by withFetchWord, runs as the first instruction after reset. -/
theorem test_every_opcode_runs :
    (List.range 16).all (fun op => match step (State.reset.withFetchWord 16 (op * 4096)) with
      | .next t => !(t.run == State.reset.run) || t.pc != 0 || op == 5
      | _ => false) = true := by decide

/-! ### Witnesses: states and operands that meet the hypotheses of each obligation -/

theorem witness_DecodeOfEncodeIsIdentity :
    (Instr.store 0 1).wellFormed = true ∧ (Instr.draw 15 15 15).wellFormed = true := by decide
theorem witness_IgnoredDigitsAreIgnored :
    (0x31FF : Word) &&& usedBits (Word.op 0x31FF) = 0x3100 &&& usedBits (Word.op 0x3100) := by decide
theorem witness_StoreLoadsALiteralByte : ¬((1 : Nibble) = 0 ∧ (0 : Byte) = 0) ∧ ¬((0 : Nibble) = 0 ∧ (1 : Byte) = 0) := by
  decide
/-- The hypothesis of ChecksRegisters, at both ends of 8..15 and in each field. -/
theorem witness_ChecksRegisters :
    firstBadRegister [(.X, 8)] = some (.invalidRegister .X 8) ∧
    firstBadRegister [(.X, 7), (.Y, 15)] = some (.invalidRegister .Y 15) ∧
    firstBadRegister [(.X, 0), (.Y, 7), (.Z, 8)] = some (.invalidRegister .Z 8) := by decide
/-- Both sides of each value check of CONVERT_BYTE_TO_ASCII. -/
theorem witness_ConvertByteToAscii : ((-1 : Int) < 0 ∨ 15 < (-1 : Int)) ∧ ((16 : Int) < 0 ∨ 15 < (16 : Int)) ∧
    ¬((0 : Int) < 0 ∨ 15 < (0 : Int)) ∧ ¬((15 : Int) < 0 ∨ 15 < (15 : Int)) := by decide
/-- A source at each end of 0..999, and A at 4095, where A + 1 and A + 2 are out of range. -/
theorem witness_ConvertToBaseTen : 0 ≤ (State.reset.setReg 0 0).reg 0 ∧ (State.reset.setReg 0 999).reg 0 ≤ 999 ∧
    ((State.reset.setA 4095).A.toNat : Int) + 1 = 4096 := by decide
theorem witness_JumpGoesExactlyToAnEvenAddress : (0 : Addr).toNat % 2 = 0 ∧ (4094 : Addr).toNat % 2 = 0 ∧
    (1 : Addr).toNat % 2 = 1 ∧ (4095 : Addr).toNat % 2 = 1 := by decide
theorem witness_ReadKeyboard : (State.reset.answerKey 42).draws.keys = 42 :: [] := rfl
/-- Both sides of each check of DRAW, through the machine (test_D4_draw_faults runs the faulting sides). -/
theorem witness_DrawWritesOneCell :
    (after ((start 0xF077).setReg 0 0)).displayRead 7 7 = 0 ∧ (after ((start 0xF000).setReg 0 127)).displayRead 0 0 = 127 := by
  decide
/-- A line of each kind: no digit, one, two and more; and a character that is no digit. -/
theorem witness_KeyboardLinesConvert : hexValue 'z' = none ∧ 'G' ∉ hexDigits ∧ 'G' ∉ lowerHexDigits ∧
    ['z', 'z'].filterMap hexValue = [] ∧ ['z', 'F'].filterMap hexValue = [15] ∧
    ['f', 'g', 'F'].filterMap hexValue = [15, 15] ∧ ['0', 'a', '9'].filterMap hexValue = 0 :: 10 :: [9] ∧
    (∀ c ∈ ['z', 'z'], hexValue c = none) ∧ State.reset.draws.keys = [] :=
  ⟨rfl, by decide, by decide, rfl, rfl, rfl, rfl, by intro c hc; simp at hc; subst hc; rfl, rfl⟩
theorem witness_StepRunsTheDecodedInstruction : (start 0x1012).nextTurn = .engine ∧ (start 0x1012).run = .running ∧
    (start 0x1012).progRead (start 0x1012).pc ≠ 0 ∧
    decodeStoreWord ((start 0x1012).progRead (start 0x1012).pc) = .ok (.add 0 1 2) := ⟨rfl, rfl, by decide, rfl⟩
theorem witness_StepHaltsOnTheZeroWord : (start 0).nextTurn = .engine ∧ (start 0).run = .running ∧
    (start 0).fits = true ∧ (wide 1 (start 0)).fits = true ∧
    (start 0).progRead (start 0).pc = 0 := by decide
/-- Both ends of the instruction words and the first integer outside on each side. -/
theorem witness_UnknownWordsFaultAtFetch : (0 : Int) ≤ 0xFFFF ∧ (start (-1)).nextTurn = .engine ∧
    (start (-1)).run = .running ∧ (start (-1)).fits = true ∧ (start 65536).fits = true ∧ (wide 1 (start (-1))).fits = true ∧ (start (-1)).progRead (start (-1)).pc < 0 ∧ (start 65536).nextTurn = .engine ∧
    (start 65536).run = .running ∧ 0xFFFF < (start 65536).progRead (start 65536).pc := by decide
theorem witness_HaltedIsFinal : ((start 0x1012).setRun (.halted .zeroWord)).run = .halted .zeroWord ∧
    ((start 0x1012).setRun (.halted .zeroWord)).nextTurn = .engine := ⟨rfl, rfl⟩
theorem witness_FaultsArePrecise : (start 0x5003).run = .running ∧ step (start 0x5003) = .next (after (start 0x5003)) ∧
    (after (start 0x5003)).run = .halted (.fault (.invalidJumpTarget 3)) := ⟨rfl, rfl, by decide⟩
theorem witness_EveryHaltRendersOnceLast : (start 0).run = .running ∧ step (start 0) = .next (after (start 0)) ∧
    (after (start 0)).run = .halted .zeroWord := ⟨rfl, rfl, by decide⟩
theorem witness_PcPastTheStoreHalts : Instr.skipEqual 0 0 ≠ .halt ∧ (at_ 4095 0x8000).run = .running ∧
    (at_ 4095 0x8000).pc ≤ 4095 ∧
    exec (.skipEqual 0 0) (at_ 4095 0x8000) = .next (((at_ 4095 0x8000).setPc 4097).enterHalted .pcExhausted) :=
  ⟨by decide, rfl, by decide, rfl⟩
/-- Also of the hypothesis of EachPartHasItsWriters and ModeConfinesStoreWrites (there with M = 1 too). -/
theorem witness_PcMovesByOneTwoOrAJump : exec (.jump 2) State.reset = .next (State.reset.setPc 2) ∧
    exec .switchMemory State.reset = .next ((State.reset.setM 1).setPc 1) := ⟨rfl, rfl⟩
theorem witness_EachPartHasItsWriters : exec (.write 0) State.reset = .next (State.reset.setPc 1) ∧
    (∀ a, Instr.write 0 ≠ .setA a) ∧ Instr.write 0 ≠ .switchMemory ∧ (∀ b, Instr.write 0 ≠ .setT b) ∧
    (∀ x r c, Instr.write 0 ≠ .draw x r c) ∧ (∀ x, Instr.switchMemory ≠ .write x) ∧
    (∀ x, Instr.switchMemory ≠ .convertToBaseTen x) :=
  ⟨rfl, by simp, by simp, by simp, by simp, by simp, by simp⟩
theorem witness_ModeConfinesStoreWrites : State.reset.M = 0 ∧ (State.reset.setM 1).M = 1 ∧
    exec (.write 0) State.reset = .next (State.reset.setPc 1) ∧
    exec (.write 0) (State.reset.setM 1) = .next ((State.reset.setM 1).setPc 1) := ⟨rfl, rfl, rfl, rfl⟩
theorem witness_TheTraceOnlyGrows : step (start 0x1012) = .next (after (start 0x1012)) := rfl
theorem witness_NoStepChangesTheConfiguration : step (start 0x7000) = .next (after (start 0x7000)) := rfl
theorem witness_EveryStepKeepsTheInvariant : Inv (start 0x1012) ∧ step (start 0x1012) = .next (after (start 0x1012)) := by
  refine ⟨⟨by decide, rfl, rfl, by show (0 : Nat) ≤ 4095; decide, by decide, fun _ a => ?_, fun _ => rfl⟩, rfl⟩
  unfold State.progRead
  split
  · show 0 ≤ (if (0 : Nat) = a.toNat then (0x1012 : Int) else 0) ∧ (if (0 : Nat) = a.toNat then (0x1012 : Int) else 0) ≤ 65535
    split <;> omega
  · omega
theorem witness_UnwritableProgramStoreNeverChanges : (start 0x4000).cfg.romWritable = false ∧
    step (start 0x4000) = .next (after (start 0x4000)) := ⟨rfl, rfl⟩
theorem witness_EveryInterleavingIsARun :
    (State.reset.schedule [.timer, .engine, .timer]).cfg.regWidth = none ∧
    (State.reset.schedule [.timer, .engine, .timer]).draws.turns = [.timer, .engine] ++ .timer :: [] := ⟨rfl, rfl⟩
/-- Values at both ends of 20 bits fit and the next ones do not; the reset memories are canonical. -/
theorem witness_TheWidthCheckSeesEveryWord : (wide 20 ((start 0x1011).setReg 0 524287)).fits = true ∧
    (wide 20 ((start 0x1011).setReg 0 (-524288))).fits = true ∧
    (wide 20 ((start 0x1011).setReg 0 524288)).fits = false ∧
    (wide 20 ((start 0x1011).setReg 0 (-524289))).fits = false ∧
    Memory.wf 4096 0 (wide 20 (start 0x1011)).prog = true ∧ Memory.wf 4096 0 (wide 20 (start 0x1011)).data = true ∧
    WithinWidth (wide 20 State.reset) := by
  refine ⟨rfl, rfl, rfl, rfl, rfl, rfl, fun n h => ?_⟩
  cases h
  refine ⟨fun k => ?_, fun a => ?_, fun a => ?_⟩
  · rw [show (wide 20 State.reset).reg k = 0 by revert k; decide]; exact fitsBits_iff.mp (fitsBits_zero 20)
  · rw [show (wide 20 State.reset).progRead a = 0 by unfold State.progRead; split <;> rfl]
    exact fitsBits_iff.mp (fitsBits_zero 20)
  · rw [show (wide 20 State.reset).dataRead a = 0 by unfold State.dataRead; split <;> rfl]
    exact fitsBits_iff.mp (fitsBits_zero 20)
/-- A state of each clause: outside the range; inside, with an effect inside and one outside; and a step that is kept. -/
theorem witness_LeavingTheWidthFaults : (wide 16 (start 0xC000)).nextTurn = .engine ∧
    (wide 16 (start 0xC000)).run = .running ∧ (wide 16 (start 0xC000)).fits = false ∧
    (wide 20 (start 0x1012)).fits = true ∧ (wide 20 (start 0x1012)).progRead (wide 20 (start 0x1012)).pc ≠ 0 ∧
    decodeStoreWord ((wide 20 (start 0x1012)).progRead (wide 20 (start 0x1012)).pc) = .ok (.add 0 1 2) ∧
    step (wide 20 (start 0x1012)) = .next (after (wide 20 (start 0x1012))) ∧
    (∃ t, exec (.add 0 1 1) ((wide 20 (((start 0x1011).setReg 0 524287).setReg 1 1)).tookTurn.emit (.log 0 0x1011)) =
      .next t ∧ t.fits = false) := ⟨rfl, rfl, rfl, rfl, by decide, rfl, rfl, _, rfl, rfl⟩
theorem witness_OnlyReadTSeesTheTimer : AgreeButTimer (start 0xB005) ((start 0xB005).setT 9) ∧
    engineStep (start 0xB005) = .next (((start 0xB005).emit (.log 0 0xB005)).setT 5 |>.setPc 1) ∧
    (∀ x, decodeStoreWord ((start 0xB005).progRead (start 0xB005).pc) ≠ .ok (.readT x)) :=
  ⟨⟨rfl, rfl, rfl, rfl, rfl, rfl, rfl, rfl, rfl, rfl⟩, rfl, fun x h => by
    rw [show decodeStoreWord ((start 0xB005).progRead (start 0xB005).pc) = .ok (.setT 5) from rfl] at h
    simp at h⟩
theorem witness_ProgramStoreReadsAndWrites : (writable State.reset).cfg.romWritable = true ∧
    State.reset.cfg.romWritable = false ∧ (-1 : Int) < 0 ∧ (4095 : Int) < 4096 := by decide
theorem witness_DataStoreReadsAndWrites : (0 : Int) ≤ 4095 ∧ (-1 : Int) < 0 ∧ (4095 : Int) < 4096 := by decide
theorem witness_DisplayReadsAndWrites : (0 : Int) ≤ 7 ∧ (-1 : Int) < 0 ∧ (7 : Int) < 8 := by decide
theorem witness_LoadIsBigEndianPairs : ([0x12, 0x34, 0x56] : List Byte)[2 * 0]? = some 0x12 ∧
    ([0x12, 0x34, 0x56] : List Byte)[2 * 0 + 1]? = some 0x34 ∧ ([0x12, 0x34, 0x56] : List Byte).length / 2 ≤ 1 ∧
    (List.replicate 8192 (0xAB : Byte))[2 * 4095 + 1]? = some 0xAB :=
  ⟨rfl, rfl, by decide, by rw [List.getElem?_replicate]; rfl⟩
theorem witness_NextFetchSeesTheWrittenWord : ((State.reset.setM 1).setA 1).M = 1 ∧
    (writable ((State.reset.setM 1).setA 1)).cfg.romWritable = true ∧
    (writable ((State.reset.setM 1).setA 1)).A.toNat = (writable ((State.reset.setM 1).setA 1)).pc + 1 := by decide
theorem witness_AtomicTick : (turnOf .timer State.reset).nextTurn = .timer ∧
    (turnOf .timer State.reset).cfg.timerTickAtomic = true ∧ (turnOf .timer State.reset).timerOn = true := by decide
theorem witness_SplitTick : (turnOf .timer (split State.reset)).nextTurn = .timer ∧
    (turnOf .timer (split State.reset)).cfg.timerTickAtomic = false ∧
    (turnOf .timer (split State.reset)).timerOn = true ∧ (turnOf .timer (split State.reset)).tickLatch = none ∧
    ((turnOf .timer (split State.reset)).setTickLatch (some 5)).tickLatch = some 5 := by decide
theorem witness_SplitTickLosesASetT : (split (State.reset.setT 5)).cfg.timerTickAtomic = false ∧
    (split (State.reset.setT 5)).timerOn = true ∧ (split (State.reset.setT 5)).tickLatch = none ∧
    (split (State.reset.setT 5)).T ≠ 0 ∧ exec (.setT 100) (timerStep (split (State.reset.setT 5))) =
      .next (((timerStep (split (State.reset.setT 5))).setT 100).setPc 1) := ⟨rfl, rfl, rfl, by decide, rfl⟩
theorem witness_CountdownIsMonotone : (start 0x1012).cfg.timerTickAtomic = true ∧
    step (start 0x1012) = .next (after (start 0x1012)) ∧
    (∀ b, (start 0x1012).nextTurn = .engine →
      decodeStoreWord ((start 0x1012).progRead (start 0x1012).pc) ≠ .ok (.setT b)) :=
  ⟨rfl, rfl, fun b _ h => by
    rw [show decodeStoreWord ((start 0x1012).progRead (start 0x1012).pc) = .ok (.add 0 1 2) from rfl] at h
    simp at h⟩
theorem witness_TimerStopAndStart : (turnOf (.host .timerStop) State.reset).nextTurn = .host .timerStop ∧
    (State.reset.setTimerOn false).timerOn = false ∧ (State.reset.setTimerOn false).cfg.timerTickAtomic = true ∧
    (split (State.reset.setTimerOn false)).timerOn = false ∧
    (split (State.reset.setTimerOn false)).cfg.timerTickAtomic = false ∧
    (split (State.reset.setTimerOn false)).tickLatch = none := by decide
theorem witness_ReadTSeesTheTicksSinceSetT : exec (.setT 3) State.reset = .next ((State.reset.setT 3).setPc 1) := rfl

end Sys2Proof.Tests
end

section
/-! SUPPORT. The width guard, and what the Engine's step answers within it (decision D2). -/

namespace Sys2Proof.Machine

open Sys2Proof.Safety

variable {s t : State}

/-- From a state in the range, the guard lets a next state in the range pass and faults on any other. -/
theorem State.guardWidth_of_fits (h : s.fits = true) :
    s.guardWidth (.next t) = if t.fits = true then .next t else .fault .widthExceeded := if_pos h

/-- From a state outside the range, the guard faults whatever the transition does. -/
theorem State.guardWidth_of_not_fits (h : s.fits = false) (o : Host.Outcome State Fault Refusal) :
    s.guardWidth o = .fault .widthExceeded := by simp [State.guardWidth, h]

/-- What passes the guard is the transition's own next state, the range holding before and after it. -/
theorem State.guardWidth_eq_next_iff {o : Host.Outcome State Fault Refusal} :
    s.guardWidth o = .next t ↔ o = .next t ∧ s.fits = true ∧ t.fits = true := by
  constructor
  · intro h
    obtain rfl := State.eq_of_guardWidth h
    cases hs : s.fits with
    | false => rw [State.guardWidth_of_not_fits hs] at h; cases h
    | true =>
      refine ⟨rfl, rfl, ?_⟩
      rw [State.guardWidth_of_fits hs] at h
      by_contra ht
      rw [if_neg ht] at h
      cases h
  · rintro ⟨rfl, hs, ht⟩
    rw [State.guardWidth_of_fits hs, if_pos ht]

/-- The Engine's step answers a next state exactly when it is halted, or its transition stays in the range (D2). -/
theorem engineStep_eq_next_iff : engineStep s = .next t ↔ (s.run ≠ .running ∧ t = s) ∨
    (s.run = .running ∧ engineRun s = .next t ∧ s.fits = true ∧ t.fits = true) := by
  unfold engineStep
  by_cases hr : s.run = .running
  · rw [if_pos hr, State.guardWidth_eq_next_iff]
    simp [hr]
  · rw [if_neg hr]
    simp [hr, eq_comm (a := s)]

/-- The running Engine on a word that decodes acts as its instruction does after the log entry (R40). -/
theorem engineRun_of_decode {i : Instr} (h : s.fetch ≠ 0) (hd : decodeStoreWord s.fetch = .ok i) :
    engineRun s = exec i (s.emit (.log s.pc s.fetch)) := by
  rw [engineRun, if_neg h, hd]

@[simp] theorem State.tookTurn_fetch (s : State) : s.tookTurn.fetch = s.fetch := by simp [State.fetch]

@[simp] theorem State.tookTurn_fits (s : State) : s.tookTurn.fits = s.fits :=
  State.fits_congr s.tookTurn_regs s.tookTurn_prog s.tookTurn_data s.tookTurn_cfg

/-- On its turn the running Engine makes its transition within the guard. -/
theorem step_engine_running (hn : s.nextTurn = .engine) (hr : s.run = .running) :
    step s = s.tookTurn.guardWidth (engineRun s.tookTurn) := by
  rw [step, hn]
  exact if_pos (s.tookTurn_run.trans hr)

end Sys2Proof.Machine
end

section
/-! SUPPORT. States that agree but for the Timer (R217): what reads the same in them, which operations keep the
agreement, and that every instruction but READ_T does. -/

namespace Sys2Proof.Safety

open Sys2Proof.Machine

section
variable {s t u : State}

theorem AgreeButTimer.refl (s : State) : AgreeButTimer s s := ⟨rfl, rfl, rfl, rfl, rfl, rfl, rfl, rfl, rfl, rfl⟩

theorem AgreeButTimer.trans (h : AgreeButTimer s t) (h' : AgreeButTimer t u) : AgreeButTimer s u :=
  ⟨h'.regs.trans h.regs, h'.A.trans h.A, h'.M.trans h.M, h'.pc.trans h.pc, h'.prog.trans h.prog,
    h'.data.trans h.data, h'.display.trans h.display, h'.run.trans h.run, h'.cfg.trans h.cfg,
    h'.draws.trans h.draws⟩

/-! ### What reads the same -/

theorem AgreeButTimer.reg (h : AgreeButTimer s t) (k : Fin 8) : t.reg k = s.reg k := congrArg (Regs.get · k) h.regs

theorem AgreeButTimer.progRead (h : AgreeButTimer s t) (a : Int) : t.progRead a = s.progRead a := by
  simp only [State.progRead, h.prog]

theorem AgreeButTimer.dataRead (h : AgreeButTimer s t) (a : Int) : t.dataRead a = s.dataRead a := by
  simp only [State.dataRead, h.data]

theorem AgreeButTimer.memRead (h : AgreeButTimer s t) (a : Int) : t.memRead a = s.memRead a := by
  simp only [State.memRead, h.M, h.progRead, h.dataRead]

theorem AgreeButTimer.fetch (h : AgreeButTimer s t) : t.fetch = s.fetch := by
  simp only [State.fetch, h.pc, h.progRead]

theorem AgreeButTimer.addr (h : AgreeButTimer s t) (k : Int) : t.addr k = s.addr k := by
  simp only [State.addr, h.A]

theorem AgreeButTimer.nextKey (h : AgreeButTimer s t) : t.nextKey = s.nextKey := by
  simp only [State.nextKey, h.draws]

theorem AgreeButTimer.baseTen (h : AgreeButTimer s t) (v : Int) : t.baseTen v = s.baseTen v := by
  simp only [State.baseTen, State.nextWide, h.draws]

theorem AgreeButTimer.fits (h : AgreeButTimer s t) : t.fits = s.fits := State.fits_congr h.regs h.prog h.data h.cfg

/-! ### Updates that keep the agreement -/

theorem AgreeButTimer.setReg (h : AgreeButTimer s t) (k : Fin 8) (v : Int) :
    AgreeButTimer (s.setReg k v) (t.setReg k v) := { h with regs := congrArg (Regs.set · k v) h.regs }

theorem AgreeButTimer.setA (h : AgreeButTimer s t) (a : Addr) : AgreeButTimer (s.setA a) (t.setA a) :=
  { h with A := rfl }

theorem AgreeButTimer.setM (h : AgreeButTimer s t) (m : BitVec 1) : AgreeButTimer (s.setM m) (t.setM m) :=
  { h with M := rfl }

theorem AgreeButTimer.setT (h : AgreeButTimer s t) (b c : Byte) : AgreeButTimer (s.setT b) (t.setT c) := { h with }

theorem AgreeButTimer.emit (h : AgreeButTimer s t) (e f : Event) : AgreeButTimer (s.emit e) (t.emit f) := { h with }

theorem AgreeButTimer.enterHalted (h : AgreeButTimer s t) (r : HaltReason) :
    AgreeButTimer (s.enterHalted r) (t.enterHalted r) := { h with run := rfl }

theorem AgreeButTimer.takeFault (h : AgreeButTimer s t) (f : FatalFault) :
    AgreeButTimer (s.takeFault f) (t.takeFault f) := { h with run := rfl }

theorem AgreeButTimer.moveTo (h : AgreeButTimer s t) (a : Nat) : AgreeButTimer (s.moveTo a) (t.moveTo a) := by
  have hpc : AgreeButTimer (s.setPc a) (t.setPc a) := { h with pc := rfl }
  unfold State.moveTo
  split
  · exact hpc.enterHalted _
  · exact hpc

theorem AgreeButTimer.memWrite (h : AgreeButTimer s t) (a v : Int) :
    AgreeButTimer (s.memWrite a v) (t.memWrite a v) := by
  unfold State.memWrite State.progWrite State.dataWrite
  rw [h.M, h.cfg]
  split
  · split
    · exact { h with prog := congrArg (Memory.write 0 · a.toNat v) h.prog }
    · exact h
  · split
    · exact { h with data := congrArg (Memory.write 0 · a.toNat v) h.data }
    · exact h

theorem AgreeButTimer.displayWrite (h : AgreeButTimer s t) (c r v : Int) :
    AgreeButTimer (s.displayWrite c r v) (t.displayWrite c r v) := by
  unfold State.displayWrite
  split
  · exact { h with display := congrArg (Memory.write 32 · (r * 8 + c).toNat v) h.display }
  · exact h

theorem AgreeButTimer.setDraws (h : AgreeButTimer s t) (d : Draws) : AgreeButTimer (s.setDraws d) (t.setDraws d) :=
  { h with draws := rfl }

theorem AgreeButTimer.tookKey (h : AgreeButTimer s t) : AgreeButTimer s.tookKey t.tookKey := by
  unfold State.tookKey
  rw [h.draws]
  split <;> exact h.setDraws _

theorem AgreeButTimer.tookBaseTen (h : AgreeButTimer s t) (v : Int) :
    AgreeButTimer (s.tookBaseTen v) (t.tookBaseTen v) := by
  unfold State.tookBaseTen State.tookWide
  rw [h.draws]
  split
  · exact h
  · exact h.setDraws _

/-! ### The Timer's turn and the host's -/

theorem agreeButTimer_countTick (s : State) : AgreeButTimer s s.countTick := by
  unfold State.countTick
  split <;> exact { AgreeButTimer.refl s with }

theorem agreeButTimer_tick (s : State) : AgreeButTimer s s.tick :=
  .trans (t := s.setT (decrementT s.T)) { AgreeButTimer.refl s with } (agreeButTimer_countTick _)

theorem agreeButTimer_tickWrite (s : State) (b : Byte) : AgreeButTimer s (s.tickWrite b) := by
  refine .trans (t := (if b = 0 then s else s.setT (b - 1)).setTickLatch none) ?_ (agreeButTimer_countTick _)
  split <;> exact { AgreeButTimer.refl s with }

/-- The Timer's turn, in either tick mode, changes only T, the Timer's own state and the trace (R215, R216). -/
theorem agreeButTimer_timerStep (s : State) : AgreeButTimer s (timerStep s) := by
  unfold timerStep
  split
  · split
    · exact agreeButTimer_tick s
    · exact .refl s
  · split
    · exact agreeButTimer_tickWrite s _
    · split
      · exact { AgreeButTimer.refl s with }
      · exact .refl s

/-- A timer command changes only the Timer's own state (R219). -/
theorem agreeButTimer_hostStep (c : HostCommand) (s : State) : AgreeButTimer s (hostStep c s) := by
  cases c <;> exact { AgreeButTimer.refl s with }

end

/-! ### Instructions -/

/-- Both outcomes are next states, and these agree but for the Timer. -/
def OutcomesAgree (o o' : Host.Outcome State Fault Refusal) : Prop :=
  ∃ t t', o = .next t ∧ o' = .next t' ∧ AgreeButTimer t t'

section
variable {s s' : State}

theorem AgreeButTimer.raise (h : AgreeButTimer s s') (f : FatalFault) : OutcomesAgree (raise f s) (raise f s') :=
  ⟨_, _, rfl, rfl, h.takeFault f⟩

theorem AgreeButTimer.finish (h : AgreeButTimer s s') (u : PcUpdate) : OutcomesAgree (finish u s) (finish u s') := by
  rw [finish_eq, finish_eq, h.pc]
  exact ⟨_, _, rfl, rfl, h.moveTo _⟩

theorem AgreeButTimer.withReg (h : AgreeButTimer s s') (f : OperandField) (i : Nibble)
    {k k' : Fin 8 → Host.Outcome State Fault Refusal} (hk : ∀ r, OutcomesAgree (k r) (k' r)) :
    OutcomesAgree (withReg f i s k) (withReg f i s' k') := by
  rcases eq_regField_or_bad i with ⟨r, rfl⟩ | hb
  · simpa using hk r
  · rw [withReg_bad s hb, withReg_bad s' hb]
    exact ⟨_, _, rfl, rfl, h.takeFault _⟩

/-- No instruction but READ_T sees what the Timer changes (R217). -/
theorem AgreeButTimer.exec (h : AgreeButTimer s s') {i : Instr} (hi : ∀ x, i ≠ .readT x) :
    OutcomesAgree (exec i s) (exec i s') := by
  cases i with
  | halt => exact ⟨_, _, rfl, rfl, h.enterHalted _⟩
  | store x imm => exact h.withReg _ _ fun rx => (h.setReg rx _).finish _
  | add x y z =>
    simp only [Machine.exec, execAdd, h.reg]
    exact h.withReg _ _ fun rx => h.withReg _ _ fun ry => h.withReg _ _ fun rz => (h.setReg rz _).finish _
  | subtract x y z =>
    simp only [Machine.exec, execSubtract, h.reg]
    exact h.withReg _ _ fun rx => h.withReg _ _ fun ry => h.withReg _ _ fun rz => (h.setReg rz _).finish _
  | read x =>
    simp only [Machine.exec, execRead, h.addr, h.memRead]
    exact h.withReg _ _ fun rx => (h.setReg rx _).finish _
  | write x =>
    simp only [Machine.exec, execWrite, h.addr, h.reg]
    exact h.withReg _ _ fun rx => (h.memWrite _ _).finish _
  | jump a =>
    simp only [Machine.exec, execJump]
    split
    · exact h.raise _
    · exact h.finish _
  | readKeyboard x =>
    simp only [Machine.exec, execReadKeyboard, h.nextKey]
    exact h.withReg _ _ fun rx => ((h.emit _ _).tookKey.setReg rx _).finish _
  | switchMemory =>
    simp only [Machine.exec, execSwitchMemory, h.M]
    exact (h.setM _).finish _
  | skipEqual x y =>
    simp only [Machine.exec, execSkipEqual, h.reg]
    exact h.withReg _ _ fun rx => h.withReg _ _ fun ry => h.finish _
  | skipNotEqual x y =>
    simp only [Machine.exec, execSkipNotEqual, h.reg]
    exact h.withReg _ _ fun rx => h.withReg _ _ fun ry => h.finish _
  | setA a => exact (h.setA a).finish _
  | setT b => exact (h.setT b b).finish _
  | readT x => exact absurd rfl (hi x)
  | convertToBaseTen x =>
    simp only [Machine.exec, execConvertToBaseTen, h.reg, h.baseTen, h.addr]
    exact h.withReg _ _ fun rx => ((((h.tookBaseTen _).memWrite _ _).memWrite _ _).memWrite _ _).finish _
  | convertByteToAscii x y =>
    simp only [Machine.exec, execConvertByteToAscii, h.reg]
    refine h.withReg _ _ fun rx => h.withReg _ _ fun ry => ?_
    split
    · exact h.raise _
    · exact (h.setReg ry _).finish _
  | draw x row col =>
    simp only [Machine.exec, execDraw, h.reg]
    refine h.withReg _ _ fun rx => ?_
    split
    · exact h.raise _
    · split
      · exact h.raise _
      · split
        · exact h.raise _
        · exact (h.displayWrite _ _ _).finish _

/-! ### The Engine's step -/

theorem AgreeButTimer.engineRun (h : AgreeButTimer s s') (hi : ∀ x, decodeStoreWord s.fetch ≠ .ok (.readT x)) :
    OutcomesAgree (engineRun s) (engineRun s') := by
  unfold Machine.engineRun
  rw [h.fetch, h.pc]
  split
  · exact h.exec (by simp)
  · cases hd : decodeStoreWord s.fetch with
    | error e => exact h.raise _
    | ok i => exact (h.emit _ _).exec fun x hx => hi x (hx ▸ hd)

/-- The width check reads nothing of the Timer's: what passes it in one state passes it in the other. -/
theorem AgreeButTimer.engineStep {t : State} (h : AgreeButTimer s s') (hs : engineStep s = .next t)
    (hi : ∀ x, decodeStoreWord s.fetch ≠ .ok (.readT x)) : ∃ t', engineStep s' = .next t' ∧ AgreeButTimer t t' := by
  rcases engineStep_eq_next_iff.mp hs with ⟨hr, rfl⟩ | ⟨hr, ht, hfs, hft⟩
  · exact ⟨s', engineStep_eq_next_iff.mpr (.inl ⟨h.run ▸ hr, rfl⟩), h⟩
  · obtain ⟨u, t', hu, ht', hag⟩ := h.engineRun hi
    obtain rfl : t = u := by simpa [ht] using hu
    exact ⟨t', engineStep_eq_next_iff.mpr (.inr ⟨h.run ▸ hr, ht', h.fits ▸ hfs, hag.fits ▸ hft⟩), hag⟩

end

end Sys2Proof.Safety
end

section
/-! SUPPORT. What every step keeps: the range of REG_WIDTH, the configuration, and the script of turns less the turn
taken. -/

namespace Sys2Proof.Machine

open Sys2Proof.Safety

section
variable {s t : State}

/-- A step from a state in the range leaves one in the range, whichever agent takes it (D2). -/
theorem step_fits (hs : s.fits = true) (h : step s = .next t) : t.fits = true := by
  have htook : s.tookTurn.fits = true := by rw [State.tookTurn_fits, hs]
  rcases step_cases h with ⟨-, he⟩ | ⟨-, rfl⟩ | ⟨c, -, rfl⟩
  · rcases engineStep_eq_next_iff.mp he with ⟨-, rfl⟩ | ⟨-, -, -, hft⟩
    · exact htook
    · exact hft
  · rw [(agreeButTimer_timerStep _).fits, htook]
  · rw [(agreeButTimer_hostStep c _).fits, htook]

/-- No step changes the launch configuration (R27, R37). -/
theorem step_cfg (h : step s = .next t) : t.cfg = s.cfg := by
  rcases step_cases h with ⟨-, he⟩ | ⟨-, rfl⟩ | ⟨c, -, rfl⟩
  · rcases engineStep_eq_next_iff.mp he with ⟨-, rfl⟩ | ⟨-, hrun, -, -⟩
    · exact s.tookTurn_cfg
    · obtain ⟨u, hu, hcfg⟩ := engineRun_next s.tookTurn
      obtain rfl : u = t := by simpa [hu] using hrun
      rw [hcfg, State.tookTurn_cfg]
  · rw [(agreeButTimer_timerStep _).cfg, State.tookTurn_cfg]
  · rw [(agreeButTimer_hostStep c _).cfg, State.tookTurn_cfg]

/-- Where REG_WIDTH is unbounded every step answers a next state. -/
theorem step_answers_of_unbounded (h : s.cfg.regWidth = none) : ∃ t, step s = .next t := by
  unfold step
  split
  · rcases engineStep_spec s.tookTurn with ⟨-, he⟩ | ⟨t, -, -, -, ⟨-, -, he⟩ | ⟨-, hw, -⟩⟩
    · exact ⟨_, he⟩
    · exact ⟨_, he⟩
    · exact absurd (by rw [State.tookTurn_cfg, h]) hw
  · exact ⟨_, rfl⟩
  · exact ⟨_, rfl⟩

end

/-! ### The script of turns -/

@[simp] theorem State.tookTurn_turns (s : State) : s.tookTurn.draws.turns = s.draws.turns.tail := by
  unfold State.tookTurn
  split <;> simp [*]

@[simp] theorem State.tookKey_turns (s : State) : s.tookKey.draws.turns = s.draws.turns := by
  unfold State.tookKey
  split <;> rfl

@[simp] theorem State.tookBaseTen_turns (s : State) (v : Int) : (s.tookBaseTen v).draws.turns = s.draws.turns := by
  unfold State.tookBaseTen
  split <;> rfl

section
variable {s t : State}

theorem State.nextTurn_of_turns {u : Turn} {us : List Turn} (h : s.draws.turns = u :: us) : s.nextTurn = u := by
  simp [State.nextTurn, h]

/-- No instruction touches the script of turns. -/
theorem exec_turns {i : Instr} (h : exec i s = .next t) : t.draws.turns = s.draws.turns := by
  rcases exec_next h with ⟨f, rfl⟩ | hp
  · rfl
  · cases i <;> simp only [Performs] at hp
    case halt | switchMemory | setA | setT => subst hp; simp
    case jump => obtain ⟨_, rfl⟩ := hp; simp
    case store | read | write | readKeyboard | readT | convertToBaseTen => obtain ⟨_, _, rfl⟩ := hp; simp
    case skipEqual | skipNotEqual => obtain ⟨_, _, _, _, rfl⟩ := hp; simp
    case add | subtract | convertByteToAscii | draw => obtain ⟨_, _, _, _, _, _, rfl⟩ := hp; simp

theorem engineStep_turns (h : engineStep s = .next t) : t.draws.turns = s.draws.turns := by
  rcases engineStep_cases h with ⟨-, rfl⟩ | ⟨-, -, rfl⟩ | ⟨-, -, -, rfl⟩ | ⟨-, -, i, -, he⟩
  · rfl
  · rfl
  · rfl
  · exact exec_turns (s := s.emit _) he

/-- Every step takes one turn off the script, whichever agent it was given to (R2). -/
theorem step_turns (h : step s = .next t) : t.draws.turns = s.draws.turns.tail := by
  rcases step_cases h with ⟨-, he⟩ | ⟨-, rfl⟩ | ⟨c, -, rfl⟩
  · rw [engineStep_turns he, State.tookTurn_turns]
  · rw [(agreeButTimer_timerStep _).draws, State.tookTurn_turns]
  · rw [(agreeButTimer_hostStep c _).draws, State.tookTurn_turns]

/-- A run goes on from the state its first step leaves. -/
theorem core_run_succ (h : step s = .next t) (n : Nat) : Host.Core.run core (n + 1) s = Host.Core.run core n t := by
  have hc : core.step s = .next t := h
  simp only [Host.Core.run, hc]

end

/-- With an unbounded REG_WIDTH, a run as long as the first part of the script answers a state whose script is the rest. -/
theorem core_run_takes_script (before rest : List Turn) : ∀ s : State, s.cfg.regWidth = none →
    s.draws.turns = before ++ rest →
    ∃ t : State, Host.Core.run core before.length s = .next t ∧ t.draws.turns = rest := by
  induction before with
  | nil => exact fun s _ hs => ⟨s, rfl, hs⟩
  | cons v vs ih =>
    intro s hw hs
    obtain ⟨t, ht⟩ := step_answers_of_unbounded hw
    obtain ⟨u, hu, hrest⟩ := ih t (by rw [step_cfg ht, hw]) (by rw [step_turns ht, hs]; rfl)
    exact ⟨u, (core_run_succ ht vs.length).trans hu, hrest⟩

end Sys2Proof.Machine
end

section
/-! SUPPORT. The width check as a statement about reads: it sees every register and every word of both stores (D2). -/

namespace Sys2Proof.Machine

open Sys2Proof.Safety

variable {s : State} {n : Nat}

/-- What `n` bits hold of the program store, they hold of every word it reads as, inside the store or outside. -/
theorem State.inWidth_progRead (h : s.prog.fits n = true) (a : Int) : InWidth n (s.progRead a) := by
  unfold State.progRead
  split
  · exact fitsBits_iff.mp (Memory.fits_read h _)
  · exact fitsBits_iff.mp (fitsBits_zero n)

/-- What `n` bits hold of the data store, they hold of every word it reads as, inside the store or outside. -/
theorem State.inWidth_dataRead (h : s.data.fits n = true) (a : Int) : InWidth n (s.dataRead a) := by
  unfold State.dataRead
  split
  · exact fitsBits_iff.mp (Memory.fits_read h _)
  · exact fitsBits_iff.mp (fitsBits_zero n)

/-- A canonical program store whose reads are all in the range has every listed word in it. -/
theorem State.prog_fits_of_inWidth (hw : Memory.wf 4096 0 s.prog = true) (h : ∀ a, InWidth n (s.progRead a)) :
    s.prog.fits n = true := by
  refine Memory.fits_of_read hw fun a ha => fitsBits_iff.mpr ?_
  have hread : s.progRead a = Memory.read 0 s.prog a := if_pos (by omega)
  exact hread ▸ h a

/-- A canonical data store whose reads are all in the range has every listed word in it. -/
theorem State.data_fits_of_inWidth (hw : Memory.wf 4096 0 s.data = true) (h : ∀ a, InWidth n (s.dataRead a)) :
    s.data.fits n = true := by
  refine Memory.fits_of_read hw fun a ha => fitsBits_iff.mpr ?_
  have hread : s.dataRead a = Memory.read 0 s.data a := if_pos (by omega)
  exact hread ▸ h a

theorem State.withinWidth_of_fits (h : s.fits = true) : WithinWidth s := by
  intro n hn
  obtain ⟨hregs, hprog, hdata⟩ := (s.fits_some hn).mp h
  exact ⟨fun k => fitsBits_iff.mp ((Regs.fits_iff n s.regs).mp hregs k), State.inWidth_progRead hprog,
    State.inWidth_dataRead hdata⟩

theorem State.fits_of_withinWidth (hp : Memory.wf 4096 0 s.prog = true) (hd : Memory.wf 4096 0 s.data = true)
    (h : WithinWidth s) : s.fits = true := by
  cases hn : s.cfg.regWidth with
  | none => exact s.fits_of_none hn
  | some n =>
    obtain ⟨hregs, hprog, hdata⟩ := h n hn
    exact (s.fits_some hn).mpr ⟨(Regs.fits_iff n s.regs).mpr fun k => fitsBits_iff.mpr (hregs k),
      State.prog_fits_of_inWidth hp hprog, State.data_fits_of_inWidth hd hdata⟩

end Sys2Proof.Machine
end

section
/-! PROOFS. The statements about the scope of the model (spec/00_scope.md). -/

namespace Sys2Proof.Proofs

open Sys2Proof.Machine Sys2Proof.Safety

/-- Settles O35: each step takes one turn off the script, by induction on the turns before. -/
theorem everyInterleavingIsARun : Obligations.EveryInterleavingIsARun := by
  intro before after u s hw hs
  obtain ⟨t, hrun, hturns⟩ := core_run_takes_script before (u :: after) s hw hs
  exact ⟨t, hrun, hturns, State.nextTurn_of_turns hturns⟩

/-- Settles O43: a turn of the Timer or the host keeps the agreement, and so does every instruction but READ_T. -/
theorem onlyReadTSeesTheTimer : Obligations.OnlyReadTSeesTheTimer :=
  ⟨fun s c => ⟨agreeButTimer_timerStep s, agreeButTimer_hostStep c s⟩,
    fun _ _ _ hag hstep hnot => hag.engineStep hstep hnot⟩

/-- Settles O58: the check speaks of the words listed, and in canonical form these are the words read. -/
theorem theWidthCheckSeesEveryWord : Obligations.TheWidthCheckSeesEveryWord :=
  fun _ => ⟨State.withinWidth_of_fits, State.fits_of_withinWidth⟩

/-- Settles O59: the Engine's transition stands within the guard, and the other agents write no register and no store. -/
theorem leavingTheWidthFaults : Obligations.LeavingTheWidthFaults := by
  refine ⟨fun s hn hr hs => ?_, fun s t i hn hr hs h0 hd he => ?_, fun s t hs h => step_fits hs h⟩
  · rw [step_engine_running hn hr]
    exact State.guardWidth_of_not_fits (by rw [State.tookTurn_fits, hs]) _
  · have hrun : engineRun s.tookTurn = .next t := by
      rw [engineRun_of_decode (by simpa [State.fetch] using h0) (by simpa [State.fetch] using hd)]
      simpa [State.fetch] using he
    rw [step_engine_running hn hr, hrun]
    exact State.guardWidth_of_fits (by rw [State.tookTurn_fits, hs])

end Sys2Proof.Proofs
end

section
/-! SUPPORT. Frames: how they compose, what each operation leaves unchanged, and the frame of every instruction. -/

namespace Sys2Proof.Safety

open Sys2Proof.Machine

section
variable {s t u : State} {p : Part} {l l' : List Part}

theorem Part.Same.refl (s : State) (p : Part) : p.Same s s := by
  cases p <;> simp [Part.Same]

theorem Part.Same.trans (h : p.Same s t) (h' : p.Same t u) : p.Same s u := by
  cases p <;> simp_all [Part.Same]

theorem Frame.mono (h : Frame l s t) (hl : l ⊆ l') : Frame l' s t := fun p hp => h p fun hm => hp (hl hm)

/-- One transition after another changes what either changes. -/
theorem Frame.append (h : Frame l s t) (h' : Frame l' t u) : Frame (l ++ l') s u := fun p hp =>
  (h p fun hm => hp (List.mem_append_left l' hm)).trans (h' p fun hm => hp (List.mem_append_right l hm))

/-- Two transitions with the same frame, one after the other. -/
theorem Frame.trans (h : Frame l s t) (h' : Frame l t u) : Frame l s u := fun p hp => (h p hp).trans (h' p hp)

/-- What agrees but for the Timer has everything but T and the Timer's own state in its frame. -/
theorem AgreeButTimer.frame (h : AgreeButTimer s t) : Frame [.countdown, .timer] s t := fun p hp =>
  Machine.Part.same_of_fields p <| by
    cases p with
    | regs => exact h.regs
    | addr => exact h.A
    | mode => exact h.M
    | countdown | timer => simp at hp
    | prog => exact h.prog
    | data => exact h.data
    | display => exact h.display
    | config => exact h.cfg
    | draws => exact h.draws

/-! ### The frame of each operation -/

theorem setReg_frame (s : State) (k : Fin 8) (v : Int) : Frame [.regs] s (s.setReg k v) := fun p hp => by
  cases p <;> simp_all [Part.Same]

theorem setA_frame (s : State) (a : Addr) : Frame [.addr] s (s.setA a) := fun p hp => by
  cases p <;> simp_all [Part.Same]

theorem setM_frame (s : State) (m : BitVec 1) : Frame [.mode] s (s.setM m) := fun p hp => by
  cases p <;> simp_all [Part.Same]

theorem setT_frame (s : State) (b : Byte) : Frame [.countdown] s (s.setT b) := fun p hp => by
  cases p <;> simp_all [Part.Same]

theorem emit_frame (s : State) (e : Event) : Frame [] s (s.emit e) := fun p _ => by
  cases p <;> simp [Part.Same]

theorem enterHalted_frame (s : State) (r : HaltReason) : Frame [] s (s.enterHalted r) := fun p _ => by
  cases p <;> simp [Part.Same]

theorem moveTo_frame (s : State) (a : Nat) : Frame [] s (s.moveTo a) := fun p _ => by
  cases p <;> simp [Part.Same]

theorem memWrite_frame (s : State) (a v : Int) : Frame [.prog, .data] s (s.memWrite a v) := fun p hp => by
  cases p <;> simp_all [Part.Same]

theorem displayWrite_frame (s : State) (c r v : Int) : Frame [.display] s (s.displayWrite c r v) := fun p hp => by
  cases p <;> simp_all [Part.Same]

theorem tookTurn_frame (s : State) : Frame [.draws] s s.tookTurn := fun p hp => by
  cases p <;> simp_all [Part.Same]

theorem tookKey_frame (s : State) : Frame [.draws] s s.tookKey := fun p hp => by
  cases p <;> simp_all [Part.Same]

theorem tookBaseTen_frame (s : State) (v : Int) : Frame [.draws] s (s.tookBaseTen v) := fun p hp => by
  cases p <;> simp_all [Part.Same]

/-- Moving pc adds nothing to what has changed. -/
theorem Frame.moveTo (h : Frame l s t) (a : Nat) : Frame l s (t.moveTo a) :=
  (h.append (moveTo_frame t a)).mono (by simp)

end

/-! ### The frame of each instruction -/

/-- The parts an instruction may change (R23 to R34, R37). -/
def written : Instr → List Part
  | .store _ _ | .add _ _ _ | .subtract _ _ _ | .read _ | .readT _ | .convertByteToAscii _ _ => [.regs]
  | .halt | .jump _ | .skipEqual _ _ | .skipNotEqual _ _ => []
  | .write _ => [.prog, .data]
  | .convertToBaseTen _ => [.prog, .data, .draws]
  | .readKeyboard _ => [.regs, .draws]
  | .switchMemory => [.mode]
  | .setA _ => [.addr]
  | .setT _ => [.countdown]
  | .draw _ _ _ => [.display]

section
variable {i : Instr} {s t : State}

theorem addr_mem_written : .addr ∈ written i ↔ ∃ a, i = .setA a := by cases i <;> simp [written]

theorem mode_mem_written : .mode ∈ written i ↔ i = .switchMemory := by cases i <;> simp [written]

theorem countdown_mem_written : .countdown ∈ written i ↔ ∃ b, i = .setT b := by cases i <;> simp [written]

theorem display_mem_written : .display ∈ written i ↔ ∃ x r c, i = .draw x r c := by cases i <;> simp [written]

theorem prog_mem_written : .prog ∈ written i ↔ (∃ x, i = .write x) ∨ ∃ x, i = .convertToBaseTen x := by
  cases i <;> simp [written]

theorem data_mem_written : .data ∈ written i ↔ (∃ x, i = .write x) ∨ ∃ x, i = .convertToBaseTen x := by
  cases i <;> simp [written]

theorem timer_not_mem_written (i : Instr) : .timer ∉ written i := by cases i <;> simp [written]

theorem performs_frame (h : Performs i s t) : Frame (written i) s t := by
  cases i <;> simp only [Performs] at h
  case halt => exact h ▸ enterHalted_frame s _
  case switchMemory => exact h ▸ (setM_frame s _).moveTo _
  case setA a => exact h ▸ (setA_frame s a).moveTo _
  case setT b => exact h ▸ (setT_frame s b).moveTo _
  case jump a => obtain ⟨_, rfl⟩ := h; exact moveTo_frame s _
  case skipEqual | skipNotEqual => obtain ⟨_, _, _, _, rfl⟩ := h; exact moveTo_frame s _
  case store | read | readT => obtain ⟨_, _, rfl⟩ := h; exact (setReg_frame s _ _).moveTo _
  case add | subtract | convertByteToAscii =>
    obtain ⟨_, _, _, _, _, _, rfl⟩ := h
    exact (setReg_frame s _ _).moveTo _
  case readKeyboard x =>
    obtain ⟨_, _, rfl⟩ := h
    exact (((emit_frame s _).append (tookKey_frame _)).append (setReg_frame _ _ _)).mono (by simp [written]) |>.moveTo _
  case write x => obtain ⟨_, _, rfl⟩ := h; exact (memWrite_frame s _ _).moveTo _
  case convertToBaseTen x =>
    obtain ⟨_, _, rfl⟩ := h
    exact ((tookBaseTen_frame s _).append
      (((memWrite_frame _ _ _).trans (memWrite_frame _ _ _)).trans (memWrite_frame _ _ _))).mono (by simp [written])
      |>.moveTo _
  case draw x r c => obtain ⟨_, _, _, _, _, _, rfl⟩ := h; exact (displayWrite_frame s _ _ _).moveTo _

/-- An instruction, whether it completes or faults, changes only the parts it may. -/
theorem exec_frame (h : exec i s = .next t) : Frame (written i) s t := by
  rcases exec_next h with ⟨f, rfl⟩ | hp
  · exact (s.takeFault_taken f).frame.mono (by simp)
  · exact performs_frame hp

end

end Sys2Proof.Safety
end

section
/-! SUPPORT. How an instruction ends: pc's next value, the events emitted, the renders at a halt (R42, R44, R47). -/

namespace Sys2Proof.Safety

open Sys2Proof.Machine

/-- Where instruction `i`, completing from `pc`, goes: one on, two on for a skip, or to JUMP's even literal (R42). -/
def NextPc (i : Instr) (pc a : Nat) : Prop :=
  a = pc + 1 ∨ (a = pc + 2 ∧ ∃ x y, i = .skipEqual x y ∨ i = .skipNotEqual x y) ∨
    ∃ b : Addr, i = .jump b ∧ a = b.toNat ∧ b.toNat % 2 = 0

/-- The transition's last event, and its only render, is that of the display as it leaves it (R47). -/
def RendersOnceLast (s t : State) : Prop :=
  ∃ evs : List Event, t.out = s.out ++ evs ++ [.render t.cells] ∧ ∀ e ∈ evs, isRender e = false

/-- `i` completes at its next pc, with no render among what it emits by itself. -/
def Completes (i : Instr) (s t : State) : Prop :=
  ∃ a evs, NextPc i s.pc a ∧ CompletedAt a evs s t ∧ ∀ e ∈ evs, isRender e = false

section
variable {i : Instr} {s t u : State} {a : Nat} {evs : List Event}

/-- Within the store a completing instruction goes at most two words past its end. -/
theorem NextPc.le (h : NextPc i s.pc a) (hpc : s.pc ≤ 4095) : a ≤ 4097 := by
  rcases h with rfl | ⟨rfl, -⟩ | ⟨b, -, rfl, -⟩
  · omega
  · omega
  · exact Nat.le_of_lt (Nat.lt_of_lt_of_le b.isLt (by decide))

/-- Moving pc to the next one, nothing having been emitted, completes the instruction. -/
theorem completes_moveTo (ha : NextPc i s.pc a) (hr : u.run = s.run) (ho : u.out = s.out) :
    Completes i s (u.moveTo a) :=
  ⟨a, [], ha, s.moveTo_completed u a [] hr (by simp [ho]), by simp⟩

/-- An instruction that performs without halting completes. -/
theorem performs_completes (h : Performs i s t) (hi : i ≠ .halt) : Completes i s t := by
  cases i <;> simp only [Performs] at h
  case halt => exact absurd rfl hi
  case switchMemory | setA | setT => exact h ▸ completes_moveTo (.inl rfl) rfl rfl
  case jump b => obtain ⟨heven, rfl⟩ := h; exact completes_moveTo (.inr (.inr ⟨b, rfl, rfl, heven⟩)) rfl rfl
  case store | read | readT | write | convertToBaseTen =>
    obtain ⟨_, _, rfl⟩ := h
    exact completes_moveTo (.inl rfl) (by simp) (by simp)
  case add | subtract | convertByteToAscii | draw =>
    obtain ⟨_, _, _, _, _, _, rfl⟩ := h
    exact completes_moveTo (.inl rfl) (by simp) (by simp)
  case skipEqual x y =>
    obtain ⟨_, _, _, _, rfl⟩ := h
    split
    · exact completes_moveTo (.inr (.inl ⟨rfl, x, y, .inl rfl⟩)) rfl rfl
    · exact completes_moveTo (.inl rfl) rfl rfl
  case skipNotEqual x y =>
    obtain ⟨_, _, _, _, rfl⟩ := h
    split
    · exact completes_moveTo (.inl rfl) rfl rfl
    · exact completes_moveTo (.inr (.inl ⟨rfl, x, y, .inr rfl⟩)) rfl rfl
  case readKeyboard x =>
    obtain ⟨_, _, rfl⟩ := h
    exact ⟨_, [.prompt], .inl rfl, s.moveTo_completed _ _ _ (by simp) (by simp), by simp [isRender]⟩

/-- How every instruction ends: in a fault, at HALT's halt, or completed at its next pc. -/
theorem exec_ends (h : exec i s = .next t) :
    (∃ f, t = s.takeFault f) ∨ (i = .halt ∧ t = s.enterHalted .zeroWord) ∨
      Completes i s t := by
  rcases exec_next h with hf | hp
  · exact .inl hf
  · by_cases hi : i = .halt
    · subst hi; exact .inr (.inl ⟨rfl, hp⟩)
    · exact .inr (.inr (performs_completes hp hi))

/-! ### The trace -/

theorem CompletedAt.out_grows (h : CompletedAt a evs s t) : s.out <+: t.out := by
  by_cases ha : a < 4096
  · exact ⟨evs, (h.goesOn ha).2.symm⟩
  · exact ⟨evs ++ [.render t.cells], by rw [(h.exhausts (by omega)).2, List.append_assoc]⟩

theorem exec_out_grows (h : exec i s = .next t) : s.out <+: t.out := by
  rcases exec_ends h with ⟨f, rfl⟩ | ⟨-, rfl⟩ | ⟨a, evs, -, hc, -⟩
  · exact ⟨_, (s.takeFault_out f).symm⟩
  · exact ⟨_, rfl⟩
  · exact hc.out_grows

theorem engineStep_out_grows (h : engineStep s = .next t) : s.out <+: t.out := by
  rcases engineStep_cases h with ⟨-, rfl⟩ | ⟨-, -, rfl⟩ | ⟨-, -, -, rfl⟩ | ⟨-, -, i, -, he⟩
  · exact List.prefix_rfl
  · exact ⟨_, rfl⟩
  · exact ⟨_, (s.takeFault_out _).symm⟩
  · exact .trans ⟨_, rfl⟩ (exec_out_grows he)

theorem countTick_out_grows (s : State) : s.out <+: s.countTick.out := by
  unfold State.countTick
  split
  · exact ⟨_, rfl⟩
  · exact List.prefix_rfl

theorem timerStep_out_grows (s : State) : s.out <+: (timerStep s).out := by
  unfold timerStep
  split
  · split
    · exact countTick_out_grows (s.setT (decrementT s.T))
    · exact List.prefix_rfl
  · split
    · rename_i b _
      have hw : ((if b = 0 then s else s.setT (b - 1)).setTickLatch none).out = s.out := by split <;> rfl
      exact hw ▸ countTick_out_grows _
    · split <;> exact List.prefix_rfl

/-- Every step of every agent appends to the trace (R35, R225). -/
theorem step_out_grows (h : step s = .next t) : s.out <+: t.out := by
  rcases step_cases h with ⟨-, he⟩ | ⟨-, rfl⟩ | ⟨c, -, rfl⟩
  · exact s.tookTurn_out ▸ engineStep_out_grows he
  · exact s.tookTurn_out ▸ timerStep_out_grows s.tookTurn
  · rw [← s.tookTurn_out]; cases c <;> exact List.prefix_rfl

/-! ### The render of a halt -/

theorem takeFault_rendersOnceLast (s : State) (f : FatalFault) : RendersOnceLast s (s.takeFault f) :=
  ⟨[.faultReport s.pc (s.progRead s.pc) f], by simp [s.takeFault_out f], by simp [isRender]⟩

theorem enterHalted_rendersOnceLast (s : State) (r : HaltReason) : RendersOnceLast s (s.enterHalted r) :=
  ⟨[], by simp, by simp⟩

/-- An event that is no render may come first. -/
theorem RendersOnceLast.of_emit {e : Event} (he : isRender e = false) (h : RendersOnceLast (s.emit e) t) :
    RendersOnceLast s t := by
  obtain ⟨evs, hout, hevs⟩ := h
  refine ⟨e :: evs, by rw [hout]; simp, fun x hx => ?_⟩
  rcases List.mem_cons.mp hx with rfl | hx
  · exact he
  · exact hevs x hx

theorem exec_rendersOnceLast {r : HaltReason} (h : exec i s = .next t) (hs : s.run = .running)
    (ht : t.run = .halted r) : RendersOnceLast s t := by
  rcases exec_ends h with ⟨f, rfl⟩ | ⟨-, rfl⟩ | ⟨a, evs, -, hc, hevs⟩
  · exact takeFault_rendersOnceLast s f
  · exact enterHalted_rendersOnceLast s _
  · by_cases ha : a < 4096
    · simp [(hc.goesOn ha).1, hs] at ht
    · exact ⟨evs, (hc.exhausts (by omega)).2, hevs⟩

theorem engineStep_rendersOnceLast {r : HaltReason} (h : engineStep s = .next t) (hs : s.run = .running)
    (ht : t.run = .halted r) : RendersOnceLast s t := by
  rcases engineStep_cases h with ⟨hr, -⟩ | ⟨-, -, rfl⟩ | ⟨-, -, -, rfl⟩ | ⟨-, -, i, -, he⟩
  · exact absurd hs hr
  · exact enterHalted_rendersOnceLast s _
  · exact takeFault_rendersOnceLast s _
  · exact (exec_rendersOnceLast he hs ht).of_emit rfl

/-- Only the Engine halts, and a step that does so renders once, last. -/
theorem step_rendersOnceLast {r : HaltReason} (h : step s = .next t) (hs : s.run = .running)
    (ht : t.run = .halted r) : RendersOnceLast s t := by
  have hs' : s.tookTurn.run = .running := s.tookTurn_run.trans hs
  rcases step_cases h with ⟨-, he⟩ | ⟨-, rfl⟩ | ⟨c, -, rfl⟩
  · simpa only [RendersOnceLast, State.tookTurn_out] using engineStep_rendersOnceLast he hs' ht
  · simp [(agreeButTimer_timerStep _).run, hs] at ht
  · simp [(agreeButTimer_hostStep c _).run, hs] at ht

end

end Sys2Proof.Safety
end

section
/-! SUPPORT. The invariant's clauses about memories and the latch, apart from where pc stands: what keeps them. -/

namespace Sys2Proof.Safety

open Sys2Proof.Machine

/-- Every clause of the invariant but the one about pc and the run state. -/
structure MemoriesFit (s : State) : Prop where
  prog : Memory.wf 4096 0 s.prog = true
  data : Memory.wf 4096 0 s.data = true
  display : Memory.wf 64 32 s.display = true
  codes : ∀ c ∈ s.cells, 0 ≤ c ∧ c ≤ 127
  words : s.cfg.romWritable = false → ∀ a, 0 ≤ s.progRead a ∧ s.progRead a ≤ 0xFFFF
  latch : s.cfg.timerTickAtomic = true → s.tickLatch = none

section
variable {i : Instr} {s t : State}

theorem Inv.memoriesFit (h : Inv s) : MemoriesFit s := ⟨h.prog, h.data, h.display, h.codes, h.words, h.latch⟩

theorem MemoriesFit.inv (h : MemoriesFit s) (hpc : PcFits s) : Inv s :=
  ⟨h.prog, h.data, h.display, hpc, h.codes, h.words, h.latch⟩

/-- The clauses depend on the memories, the configuration and the latch alone. -/
theorem MemoriesFit.congr (h : MemoriesFit s) (hp : t.prog = s.prog) (hd : t.data = s.data)
    (hv : t.display = s.display) (hc : t.cfg = s.cfg)
    (hl : t.cfg.timerTickAtomic = true → t.tickLatch = s.tickLatch) : MemoriesFit t where
  prog := hp ▸ h.prog
  data := hd ▸ h.data
  display := hv ▸ h.display
  codes := by simpa only [State.cells, hv] using h.codes
  words := by simpa only [State.progRead, hp, hc] using h.words
  latch ha := (hl ha).trans (h.latch (hc ▸ ha))

/-! ### Operations -/

theorem MemoriesFit.moveTo (h : MemoriesFit s) (a : Nat) : MemoriesFit (s.moveTo a) := by
  apply h.congr <;> simp

theorem MemoriesFit.setReg (h : MemoriesFit s) (k : Fin 8) (v : Int) : MemoriesFit (s.setReg k v) := by
  apply h.congr <;> simp

theorem MemoriesFit.emit (h : MemoriesFit s) (e : Event) : MemoriesFit (s.emit e) :=
  h.congr rfl rfl rfl rfl fun _ => rfl

theorem MemoriesFit.enterHalted (h : MemoriesFit s) (r : HaltReason) : MemoriesFit (s.enterHalted r) := by
  apply h.congr <;> simp

theorem MemoriesFit.takeFault (h : MemoriesFit s) (f : FatalFault) : MemoriesFit (s.takeFault f) := by
  apply h.congr <;> simp

theorem MemoriesFit.tookTurn (h : MemoriesFit s) : MemoriesFit s.tookTurn := by
  apply h.congr <;> simp

theorem MemoriesFit.tookKey (h : MemoriesFit s) : MemoriesFit s.tookKey := by
  apply h.congr <;> simp

theorem MemoriesFit.tookBaseTen (h : MemoriesFit s) (v : Int) : MemoriesFit (s.tookBaseTen v) := by
  apply h.congr <;> simp

/-- A store write keeps the canonical form, and an unwritable program store keeps its words (R63). -/
theorem MemoriesFit.memWrite (h : MemoriesFit s) (a v : Int) : MemoriesFit (s.memWrite a v) where
  prog := (s.memWrite_wf a v h.prog h.data).1
  data := (s.memWrite_wf a v h.prog h.data).2
  display := by simpa using h.display
  codes := by simpa using h.codes
  words hrom b := by
    have hrom' : s.cfg.romWritable = false := by simpa using hrom
    simpa [State.memWrite_progRead, hrom'] using h.words hrom' b
  latch := by simpa using h.latch

/-- A cell of the snapshot after a display write is the value written or a cell as it was. -/
theorem mem_cells_displayWrite {c r v x : Int} (hx : x ∈ (s.displayWrite c r v).cells) : x = v ∨ x ∈ s.cells := by
  unfold State.displayWrite at hx
  split at hx
  · obtain ⟨k, hk, rfl⟩ := List.mem_map.mp hx
    rw [State.setDisplay_display, Memory.read_write]
    split
    · exact .inl rfl
    · exact .inr (List.mem_map.mpr ⟨k, hk, rfl⟩)
  · exact .inr hx

theorem MemoriesFit.displayWrite (h : MemoriesFit s) (c r : Int) {v : Int} (h0 : 0 ≤ v) (h127 : v ≤ 127) :
    MemoriesFit (s.displayWrite c r v) where
  prog := by simpa using h.prog
  data := by simpa using h.data
  display := s.displayWrite_wf c r v h.display
  codes x hx := by
    rcases mem_cells_displayWrite hx with rfl | hx
    · exact ⟨h0, h127⟩
    · exact h.codes x hx
  words := by simpa using h.words
  latch := by simpa using h.latch

/-! ### Instructions, and every step -/

theorem MemoriesFit.performs (h : MemoriesFit s) (hp : Performs i s t) : MemoriesFit t := by
  cases i <;> simp only [Performs] at hp
  case halt => exact hp ▸ h.enterHalted _
  case switchMemory | setA | setT => subst hp; apply h.congr <;> simp
  case jump => obtain ⟨_, rfl⟩ := hp; exact h.moveTo _
  case skipEqual | skipNotEqual => obtain ⟨_, _, _, _, rfl⟩ := hp; exact h.moveTo _
  case store | read | readT => obtain ⟨_, _, rfl⟩ := hp; exact (h.setReg _ _).moveTo _
  case add | subtract | convertByteToAscii => obtain ⟨_, _, _, _, _, _, rfl⟩ := hp; exact (h.setReg _ _).moveTo _
  case readKeyboard => obtain ⟨_, _, rfl⟩ := hp; exact ((h.emit _).tookKey.setReg _ _).moveTo _
  case write => obtain ⟨_, _, rfl⟩ := hp; exact (h.memWrite _ _).moveTo _
  case convertToBaseTen =>
    obtain ⟨_, _, rfl⟩ := hp
    exact ((((h.tookBaseTen _).memWrite _ _).memWrite _ _).memWrite _ _).moveTo _
  case draw => obtain ⟨_, _, h0, h127, _, _, rfl⟩ := hp; exact (h.displayWrite _ _ h0 h127).moveTo _

theorem MemoriesFit.exec (h : MemoriesFit s) (he : Machine.exec i s = .next t) : MemoriesFit t := by
  rcases exec_next he with ⟨f, rfl⟩ | hp
  · exact h.takeFault f
  · exact h.performs hp

theorem MemoriesFit.engineStep (h : MemoriesFit s) (he : Machine.engineStep s = .next t) : MemoriesFit t := by
  rcases engineStep_cases he with ⟨-, rfl⟩ | ⟨-, -, rfl⟩ | ⟨-, -, -, rfl⟩ | ⟨-, -, i, -, he⟩
  · exact h
  · exact h.enterHalted _
  · exact h.takeFault _
  · exact (h.emit _).exec he

theorem countTick_tickLatch (s : State) : s.countTick.tickLatch = s.tickLatch := by
  unfold State.countTick
  split <;> rfl

/-- Under atomic ticks the Timer's turn latches nothing (R215). -/
theorem timerStep_tickLatch (ha : s.cfg.timerTickAtomic = true) : (timerStep s).tickLatch = s.tickLatch := by
  unfold timerStep
  rw [if_pos ha]
  split
  · exact countTick_tickLatch _
  · rfl

theorem MemoriesFit.timerStep (h : MemoriesFit s) : MemoriesFit (Machine.timerStep s) :=
  have hag := agreeButTimer_timerStep s
  h.congr hag.prog hag.data hag.display hag.cfg fun ha => timerStep_tickLatch (hag.cfg ▸ ha)

theorem MemoriesFit.hostStep (h : MemoriesFit s) (c : HostCommand) : MemoriesFit (Machine.hostStep c s) := by
  cases c <;> exact h.congr rfl rfl rfl rfl fun _ => rfl

theorem MemoriesFit.step (h : MemoriesFit s) (hst : Machine.step s = .next t) : MemoriesFit t := by
  rcases step_cases hst with ⟨-, he⟩ | ⟨-, rfl⟩ | ⟨c, -, rfl⟩
  · exact h.tookTurn.engineStep he
  · exact h.tookTurn.timerStep
  · exact h.tookTurn.hostStep c

end

end Sys2Proof.Safety
end

section
/-! SUPPORT. The invariant's clause about pc: where it stands in each run state (R29, R43, R44, R200). -/

namespace Sys2Proof.Safety

open Sys2Proof.Machine

section
variable {i : Instr} {s t : State}

theorem PcFits.running (h : PcFits s) (hr : s.run = .running) : s.pc ≤ 4095 := by
  simpa only [PcFits, hr] using h

/-- The clause depends on pc, the run state and the program words alone. -/
theorem PcFits.congr (h : PcFits s) (hpc : t.pc = s.pc) (hr : t.run = s.run)
    (hw : ∀ a, t.progRead a = s.progRead a) : PcFits t := by
  simpa only [PcFits, hpc, hr, hw] using h

theorem PcFits.agree (h : PcFits s) (hag : AgreeButTimer s t) : PcFits t := h.congr hag.pc hag.run hag.progRead

theorem PcFits.tookTurn (h : PcFits s) : PcFits s.tookTurn := by
  apply h.congr <;> simp

theorem pcFits_enterHalted_zeroWord (hpc : s.pc ≤ 4095) (h0 : s.fetch = 0) : PcFits (s.enterHalted .zeroWord) :=
  ⟨hpc, h0⟩

theorem pcFits_takeFault (f : FatalFault) (hpc : s.pc ≤ 4095) (h0 : s.fetch ≠ 0) : PcFits (s.takeFault f) :=
  ⟨hpc, h0⟩

/-- A completed instruction leaves the Engine running within the store, or PC_EXHAUSTED just past it. -/
theorem CompletedAt.pcFits {a : Nat} {evs : List Event} (h : CompletedAt a evs s t) (hr : s.run = .running)
    (ha : a ≤ 4097) : PcFits t := by
  by_cases hlt : a < 4096
  · simp only [PcFits, (h.goesOn hlt).1, hr, h.pc]
    omega
  · simp only [PcFits, (h.exhausts (by omega)).1, h.pc]
    omega

/-- At a nonzero word every instruction but HALT leaves pc where its run state says. -/
theorem exec_pcFits (h : exec i s = .next t) (hi : i ≠ .halt) (hr : s.run = .running) (hpc : s.pc ≤ 4095)
    (h0 : s.fetch ≠ 0) : PcFits t := by
  rcases exec_ends h with ⟨f, rfl⟩ | ⟨hh, -⟩ | ⟨a, evs, ha, hc, -⟩
  · exact pcFits_takeFault f hpc h0
  · exact absurd hh hi
  · exact hc.pcFits hr (ha.le hpc)

theorem dispatch_ne_halt (w : Word) : dispatch w ≠ .halt := by
  unfold dispatch
  split <;> simp

/-- No store word but 0 decodes to HALT (R93). -/
theorem ne_halt_of_decodeStoreWord {w : Int} (h : decodeStoreWord w = .ok i) (h0 : w ≠ 0) : i ≠ .halt := by
  unfold decodeStoreWord at h
  split at h
  · rename_i hw
    cases h
    have hne : BitVec.ofNat 16 w.toNat ≠ 0 := fun hz => by
      have hmod : w.toNat % 2 ^ 16 = 0 := by simpa using congrArg BitVec.toNat hz
      omega
    rw [decode, if_neg hne]
    exact dispatch_ne_halt _
  · cases h

theorem PcFits.engineStep (h : PcFits s) (he : Machine.engineStep s = .next t) : PcFits t := by
  rcases engineStep_cases he with ⟨-, rfl⟩ | ⟨hr, h0, rfl⟩ | ⟨hr, h0, -, rfl⟩ | ⟨hr, h0, i, hd, he⟩
  · exact h
  · exact pcFits_enterHalted_zeroWord (h.running hr) h0
  · exact pcFits_takeFault _ (h.running hr) h0
  · exact exec_pcFits he (ne_halt_of_decodeStoreWord hd h0) hr (h.running hr) h0

theorem PcFits.step (h : PcFits s) (hst : Machine.step s = .next t) : PcFits t := by
  rcases step_cases hst with ⟨-, he⟩ | ⟨-, rfl⟩ | ⟨c, -, rfl⟩
  · exact h.tookTurn.engineStep he
  · exact h.tookTurn.agree (agreeButTimer_timerStep _)
  · exact h.tookTurn.agree (agreeButTimer_hostStep c _)

end

end Sys2Proof.Safety
end

section
/-! SUPPORT. The Engine's turn where nothing leaves the range; the halted machine; the snapshot; what M confines. -/

namespace Sys2Proof.Machine

open Sys2Proof.Safety

section
variable {s t : State}

/-- Where REG_WIDTH is unbounded the guard lets every next state of the same configuration pass (D2). -/
theorem State.guardWidth_of_unbounded (hw : s.cfg.regWidth = none) (hc : t.cfg = s.cfg) :
    s.guardWidth (.next t) = .next t := by
  rcases s.guardWidth_next hc with ⟨-, -, h⟩ | ⟨-, h, -⟩
  · exact h
  · exact absurd hw h

/-- The running Engine at the zero word halts there (R43). -/
theorem engineRun_of_zeroWord (h : s.fetch = 0) : engineRun s = .next (s.enterHalted .zeroWord) := if_pos h

/-- A halted Engine's turn passes (R45). -/
theorem step_engine_halted {r : HaltReason} (hn : s.nextTurn = .engine) (hr : s.run = .halted r) :
    step s = .next s.tookTurn := by
  have hne : s.tookTurn.run ≠ .running := by simp [hr]
  rw [step, hn]
  exact if_neg hne

/-- From HALTED every agent's step answers a next state that agrees with the turn taken but for the Timer. -/
theorem step_halted {r : HaltReason} (hr : s.run = .halted r) :
    ∃ t, step s = .next t ∧ AgreeButTimer s.tookTurn t := by
  cases hn : s.nextTurn with
  | engine => exact ⟨_, step_engine_halted hn hr, .refl _⟩
  | timer => exact ⟨_, by rw [step, hn], agreeButTimer_timerStep _⟩
  | host c => exact ⟨_, by rw [step, hn], agreeButTimer_hostStep c _⟩

/-! ### The snapshot -/

@[simp] theorem State.cells_length (s : State) : s.cells.length = 64 := by simp [State.cells]

theorem State.cells_getElem? (s : State) {k : Nat} (hk : k < 64) : s.cells[k]? = some (Memory.read 32 s.display k) := by
  simp [State.cells, hk]

/-- A cell that exists reads as the display's word at its linear index (R33). -/
theorem State.displayRead_cell (s : State) (col row : Fin 8) :
    s.displayRead (col.val : Int) (row.val : Int) = Memory.read 32 s.display (row.val * 8 + col.val) := by
  have hk : ((row.val : Int) * 8 + col.val).toNat = row.val * 8 + col.val := by omega
  rw [State.displayRead, if_pos (by omega), hk]

/-! ### Stores through M -/

theorem State.memWrite_progRead_of_data (h : s.M = 0) (a v b : Int) :
    (s.memWrite a v).progRead b = s.progRead b := by
  simp [State.memWrite_progRead, h]

theorem State.memWrite_dataRead_of_prog (h : s.M = 1) (a v b : Int) :
    (s.memWrite a v).dataRead b = s.dataRead b := by
  simp [State.memWrite_dataRead, h]

/-- No instruction writes a store other than the one M selects (R24, R67). -/
theorem exec_confined {i : Instr} (h : exec i s = .next t) :
    (s.M = 0 → ∀ a, t.progRead a = s.progRead a) ∧ (s.M = 1 → ∀ a, t.dataRead a = s.dataRead a) := by
  by_cases hw : (∃ x, i = .write x) ∨ ∃ x, i = .convertToBaseTen x
  · rcases exec_next h with ⟨f, rfl⟩ | hp
    · simp
    · rcases hw with ⟨x, rfl⟩ | ⟨x, rfl⟩ <;> obtain ⟨rx, -, rfl⟩ := hp <;>
        exact ⟨fun hm a => by simp [State.memWrite_progRead_of_data, hm],
          fun hm a => by simp [State.memWrite_dataRead_of_prog, hm]⟩
  · exact ⟨fun _ => exec_frame h .prog (prog_mem_written.not.mpr hw),
      fun _ => exec_frame h .data (data_mem_written.not.mpr hw)⟩

end

end Sys2Proof.Machine
end

section
/-! PROOFS. The statements about the state and the Engine's step (spec/10_state.md). -/

namespace Sys2Proof.Proofs

open Sys2Proof.Machine Sys2Proof.Safety

/-- Settles O38: the clauses about the memories and the clause about pc are kept apart from one another. -/
theorem everyStepKeepsTheInvariant : Obligations.EveryStepKeepsTheInvariant :=
  fun _ _ hinv hstep => (hinv.memoriesFit.step hstep).inv (hinv.pcFits.step hstep)

/-- Settles O28: the Engine's turn passes, and the other agents touch only T, the Timer's state and the trace. -/
theorem haltedIsFinal : Obligations.HaltedIsFinal := by
  intro s r hr
  obtain ⟨t, hstep, hag⟩ := step_halted hr
  refine ⟨fun hn => step_engine_halted hn hr, t, hstep, hag.run.trans (s.tookTurn_run.trans hr),
    hag.pc.trans s.tookTurn_pc, ?_⟩
  exact ((tookTurn_frame s).append hag.frame).mono (by simp)

/-- Settles O30: each of the Engine's ways to halt ends in the one render. -/
theorem everyHaltRendersOnceLast : Obligations.EveryHaltRendersOnceLast :=
  fun _ _ _ hs hstep ht => step_rendersOnceLast hstep hs ht

/-- Settles O31: a fault leaves pc within the store, and a completed instruction halts exactly past it. -/
theorem pcPastTheStoreHalts : Obligations.PcPastTheStoreHalts := by
  intro i s t hi hr hpc h
  rcases exec_ends h with ⟨f, rfl⟩ | ⟨hh, -⟩ | ⟨a, evs, -, hc, -⟩
  · simp only [State.takeFault_pc, State.takeFault_run]
    exact ⟨fun _ => by omega, nofun⟩
  · exact absurd hh hi
  · rw [hc.pc]
    refine ⟨fun ha => (hc.exhausts ha).1, fun ht => ?_⟩
    by_contra ha
    rw [(hc.goesOn (by omega)).1, hr] at ht
    cases ht

/-- Settles O32, from how each instruction ends. -/
theorem pcMovesByOneTwoOrAJump : Obligations.PcMovesByOneTwoOrAJump := by
  intro i s t h
  rcases exec_ends h with ⟨f, rfl⟩ | ⟨-, rfl⟩ | ⟨a, evs, ha, hc, -⟩
  · exact .inl ⟨rfl, .inr ⟨f, rfl⟩⟩
  · exact .inl ⟨rfl, .inl rfl⟩
  · rw [hc.pc]
    exact .inr ha

/-- Settles O34: no agent drops an event from the trace. -/
theorem theTraceOnlyGrows : Obligations.TheTraceOnlyGrows := by
  intro s t h
  obtain ⟨evs, hevs⟩ := step_out_grows h
  exact ⟨evs, hevs.symm⟩

/-- Settles O39, by the configuration every agent keeps. -/
theorem noStepChangesTheConfiguration : Obligations.NoStepChangesTheConfiguration := fun _ _ => step_cfg

/-- Settles O40: each part stands in the frame of every instruction that is not one of its writers. -/
theorem eachPartHasItsWriters : Obligations.EachPartHasItsWriters := by
  intro i s t h
  have hf := exec_frame h
  exact ⟨fun hi => hf .addr (by simpa [addr_mem_written] using hi), fun hi => hf .mode (mode_mem_written.not.mpr hi),
    fun hi => hf .countdown (by simpa [countdown_mem_written] using hi),
    fun hi => hf .display (by simpa [display_mem_written] using hi),
    fun hw hc => ⟨hf .prog (by simp [prog_mem_written, hw, hc]), hf .data (by simp [data_mem_written, hw, hc])⟩,
    hf .timer (timer_not_mem_written i)⟩

/-- Settles O42: only WRITE and CONVERT_TO_BASE_TEN write a store, both through M. -/
theorem modeConfinesStoreWrites : Obligations.ModeConfinesStoreWrites := fun _ _ _ => exec_confined

/-- Settles O47: both sides read the display at the same linear index. -/
theorem rendersCarryTheSixtyFourCells : Obligations.RendersCarryTheSixtyFourCells := fun s =>
  ⟨s.cells_length, fun col row => by rw [s.cells_getElem? (by omega), s.displayRead_cell]⟩

/-- Settles O6: HALT writes no part. -/
theorem haltStopsAtTheZeroWord : Obligations.HaltStopsAtTheZeroWord :=
  ⟨rfl, fun s => ⟨s.enterHalted .zeroWord, rfl, rfl, rfl, rfl, enterHalted_frame s _⟩⟩

/-- Settles O25: the guard is transparent where REG_WIDTH is unbounded. -/
theorem stepRunsTheDecodedInstruction : Obligations.StepRunsTheDecodedInstruction := by
  intro s i hn hr h0 hd
  have hstep : step s = s.tookTurn.guardWidth (exec i (s.tookTurn.emit (.log s.pc (s.progRead s.pc)))) := by
    rw [step_engine_running hn hr,
      engineRun_of_decode (by simpa [State.fetch] using h0) (by simpa [State.fetch] using hd)]
    simp [State.fetch]
  refine ⟨hstep, fun hw => ?_⟩
  obtain ⟨t, ht, -⟩ := exec_cases i (s.tookTurn.emit (.log s.pc (s.progRead s.pc)))
  have hcfg : t.cfg = s.tookTurn.cfg := exec_cfg (s := s.tookTurn.emit _) ht
  rw [hstep, ht]
  exact State.guardWidth_of_unbounded (by simp [hw]) hcfg

/-- Settles O26: the halt writes no part, so it stays in the range. -/
theorem stepHaltsOnTheZeroWord : Obligations.StepHaltsOnTheZeroWord := by
  intro s hn hr hs h0
  have hfits : (s.tookTurn.enterHalted .zeroWord).fits = true := (s.tookTurn_fits).trans hs
  refine ⟨s.tookTurn.enterHalted .zeroWord, ?_, rfl, s.tookTurn_pc, by simp, rfl,
    ((tookTurn_frame s).append (enterHalted_frame _ _)).mono (by simp)⟩
  rw [step_engine_running hn hr, engineRun_of_zeroWord (by simpa [State.fetch] using h0),
    State.guardWidth_of_fits (by simpa using hs), if_pos hfits]

end Sys2Proof.Proofs
end

section
/-! SUPPORT. The frames of the updates of a store and of the configuration. -/

namespace Sys2Proof.Safety

open Sys2Proof.Machine

theorem setProg_frame (s : State) (m : Memory) : Frame [.prog] s (s.setProg m) := fun p hp => by
  cases p <;> simp_all [Part.Same]

theorem setData_frame (s : State) (m : Memory) : Frame [.data] s (s.setData m) := fun p hp => by
  cases p <;> simp_all [Part.Same]

theorem setCfg_frame (s : State) (c : CoreConfig) : Frame [.config] s (s.setCfg c) := fun p hp => by
  cases p <;> simp_all [Part.Same]

end Sys2Proof.Safety
end

section
/-! SUPPORT. The stores and the display: what a write in range is, that one refused or dropped changes nothing, and the
unwritable program store (R62 to R65, R69). -/

namespace Sys2Proof.Machine

open Sys2Proof.Safety

section
variable {s t : State} {a v c r : Int}

/-! ### The program store -/

theorem State.progWrite_of_writable (hw : s.cfg.romWritable = true) (h0 : 0 ≤ a) (h1 : a ≤ 4095) (v : Int) :
    s.progWrite a v = (s.setProg (Memory.write 0 s.prog a.toNat v), true) := if_pos ⟨hw, h0, h1⟩

theorem State.progWrite_refused (h : s.cfg.romWritable = false ∨ a < 0 ∨ 4095 < a) (v : Int) :
    s.progWrite a v = (s, false) := by
  refine if_neg fun ⟨hw, h0, h1⟩ => ?_
  rcases h with h | h | h
  · simp [h] at hw
  · omega
  · omega

/-- While the program store is not writable no instruction changes a word of it (R63). -/
theorem exec_progRead_of_unwritable {i : Instr} (hw : s.cfg.romWritable = false) (h : exec i s = .next t) (b : Int) :
    t.progRead b = s.progRead b := by
  by_cases hi : (∃ x, i = .write x) ∨ ∃ x, i = .convertToBaseTen x
  · rcases exec_next h with ⟨f, rfl⟩ | hp
    · simp
    · rcases hi with ⟨x, rfl⟩ | ⟨x, rfl⟩ <;> obtain ⟨rx, -, rfl⟩ := hp <;> simp [State.memWrite_progRead, hw]
  · exact exec_frame h .prog (prog_mem_written.not.mpr hi) b

theorem engineStep_progRead_of_unwritable (hw : s.cfg.romWritable = false) (h : engineStep s = .next t) (b : Int) :
    t.progRead b = s.progRead b := by
  rcases engineStep_cases h with ⟨-, rfl⟩ | ⟨-, -, rfl⟩ | ⟨-, -, -, rfl⟩ | ⟨-, -, i, -, he⟩
  · rfl
  · simp
  · simp
  · exact exec_progRead_of_unwritable (s := s.emit _) hw he b

/-- While the program store is not writable no agent changes a word of it (R63, R252). -/
theorem step_progRead_of_unwritable (hw : s.cfg.romWritable = false) (h : step s = .next t) (b : Int) :
    t.progRead b = s.progRead b := by
  rw [← s.tookTurn_progRead b]
  rcases step_cases h with ⟨-, he⟩ | ⟨-, rfl⟩ | ⟨c, -, rfl⟩
  · exact engineStep_progRead_of_unwritable (by simp [hw]) he b
  · exact (agreeButTimer_timerStep _).progRead b
  · exact (agreeButTimer_hostStep c _).progRead b

/-! ### The data store -/

theorem State.dataWrite_of_inside (h0 : 0 ≤ a) (h1 : a ≤ 4095) (v : Int) :
    s.dataWrite a v = s.setData (Memory.write 0 s.data a.toNat v) := if_pos ⟨h0, h1⟩

theorem State.dataWrite_outside (h : a < 0 ∨ 4095 < a) (v : Int) : s.dataWrite a v = s := if_neg (by omega)

/-! ### The display -/

theorem State.displayRead_outside (h : c < 0 ∨ 7 < c ∨ r < 0 ∨ 7 < r) : s.displayRead c r = 0 := if_neg (by omega)

theorem State.displayWrite_outside (h : c < 0 ∨ 7 < c ∨ r < 0 ∨ 7 < r) (v : Int) : s.displayWrite c r v = s :=
  if_neg (by omega)

/-! ### Writes through M -/

/-- With M = 1 and the program store writable, a write in range is read at once (R63, R67). -/
theorem State.memWrite_progRead_same (hM : s.M = 1) (hw : s.cfg.romWritable = true) (h0 : 0 ≤ a) (h1 : a ≤ 4095)
    (v : Int) : (s.memWrite a v).progRead a = v := by
  simp [State.memWrite_progRead, hM, hw, h0, h1]

end

end Sys2Proof.Machine
end

section
/-! SUPPORT. No instruction sees the writability flag (R63): run under either value it ends in states that differ in the
program store and the flag alone. -/

namespace Sys2Proof.Machine

open Sys2Proof.Safety

/-- `s` with the program store's words `m` and its writability flag `b`. -/
def State.withProg (s : State) (m : Memory) (b : Bool) : State := (s.setProg m).configure b

/-- Both outcomes are next states, the second one the first but for the program store and the flag, which is `b`. -/
def DifferInProg (b : Bool) (o o' : Host.Outcome State Fault Refusal) : Prop :=
  ∃ t m, o = .next t ∧ o' = .next (t.withProg m b)

section
variable (s : State) (m : Memory) (b : Bool)

theorem withProg_frame : Frame [.prog, .config] s (s.withProg m b) :=
  (setProg_frame s m).append (setCfg_frame _ _)

/-! ### Operations see neither the words nor the flag, but for a write through M -/

theorem State.configure_eq_withProg : s.configure b = s.withProg s.prog b := rfl

theorem State.withProg_reg (k : Fin 8) : (s.withProg m b).reg k = s.reg k := rfl

theorem State.withProg_addr (k : Int) : (s.withProg m b).addr k = s.addr k := rfl

theorem State.withProg_baseTen (v : Int) : (s.withProg m b).baseTen v = s.baseTen v := rfl

theorem State.withProg_emit (e : Event) : (s.withProg m b).emit e = (s.emit e).withProg m b := rfl

theorem State.withProg_moveTo (a : Nat) : (s.withProg m b).moveTo a = (s.moveTo a).withProg m b := by
  unfold State.moveTo
  split <;> rfl

theorem State.withProg_tookKey : (s.withProg m b).tookKey = s.tookKey.withProg m b := by
  have hd : (s.withProg m b).draws = s.draws := rfl
  unfold State.tookKey
  rw [hd]
  split <;> rfl

theorem State.withProg_tookBaseTen (v : Int) : (s.withProg m b).tookBaseTen v = (s.tookBaseTen v).withProg m b := by
  unfold State.tookBaseTen
  split <;> rfl

theorem State.withProg_displayWrite (c r v : Int) :
    (s.withProg m b).displayWrite c r v = (s.displayWrite c r v).withProg m b := by
  unfold State.displayWrite
  split <;> rfl

theorem State.withProg_memWrite (a v : Int) :
    ∃ m', (s.withProg m b).memWrite a v = (s.memWrite a v).withProg m' b := by
  refine ⟨((s.withProg m b).memWrite a v).prog, ?_⟩
  have hM : (s.withProg m b).M = s.M := rfl
  unfold State.memWrite State.progWrite State.dataWrite
  rw [hM]
  by_cases h : s.M = 1
  · simp only [if_pos h]
    split <;> split <;> rfl
  · simp only [if_neg h]
    split <;> rfl

end

/-! ### Instructions -/

section
variable {s : State} {b : Bool}

theorem raise_differInProg (f : FatalFault) : DifferInProg b (raise f s) (raise f (s.withProg s.prog b)) :=
  ⟨s.takeFault f, s.prog, rfl, rfl⟩

theorem finish_differInProg (s : State) (m : Memory) (u : PcUpdate) :
    DifferInProg b (finish u s) (finish u (s.withProg m b)) :=
  ⟨_, m, rfl, congrArg Host.Outcome.next (s.withProg_moveTo m b _)⟩

theorem withReg_differInProg {f : OperandField} {i : Nibble} {k k' : Fin 8 → Host.Outcome State Fault Refusal}
    (hk : ∀ r, DifferInProg b (k r) (k' r)) :
    DifferInProg b (withReg f i s k) (withReg f i (s.withProg s.prog b) k') := by
  rcases eq_regField_or_bad i with ⟨r, rfl⟩ | hb
  · simpa using hk r
  · rw [withReg_bad s hb, withReg_bad (s.withProg s.prog b) hb]
    exact raise_differInProg _

end

/-- An instruction under the flag `b` does what it does under the state's own flag, but to the program store. -/
theorem exec_differInProg (i : Instr) (s : State) (b : Bool) : DifferInProg b (exec i s) (exec i (s.configure b)) := by
  rw [State.configure_eq_withProg]
  cases i with
  | halt => exact ⟨s.enterHalted .zeroWord, s.prog, rfl, rfl⟩
  | switchMemory => exact finish_differInProg _ s.prog _
  | setA a => exact finish_differInProg _ s.prog _
  | setT n => exact finish_differInProg _ s.prog _
  | store x _ | read x | readT x => exact withReg_differInProg fun rx => finish_differInProg (s.setReg rx _) s.prog _
  | add x y z | subtract x y z =>
    simp only [exec, execAdd, execSubtract]
    exact withReg_differInProg fun rx => withReg_differInProg fun ry => withReg_differInProg fun rz =>
      finish_differInProg _ s.prog _
  | skipEqual x y | skipNotEqual x y =>
    simp only [exec, execSkipEqual, execSkipNotEqual]
    exact withReg_differInProg fun rx => withReg_differInProg fun ry => finish_differInProg s s.prog _
  | jump a =>
    simp only [exec, execJump]
    split
    · exact raise_differInProg _
    · exact finish_differInProg s s.prog _
  | readKeyboard x =>
    simp only [exec, execReadKeyboard, State.withProg_emit, State.withProg_tookKey]
    exact withReg_differInProg fun rx => finish_differInProg _ s.prog _
  | write x =>
    simp only [exec, execWrite, State.withProg_reg, State.withProg_addr]
    refine withReg_differInProg fun rx => ?_
    obtain ⟨m, hm⟩ := s.withProg_memWrite s.prog b (s.addr 0) (s.reg rx)
    rw [hm]
    exact finish_differInProg _ m _
  | convertToBaseTen x =>
    simp only [exec, execConvertToBaseTen, State.withProg_reg, State.withProg_addr, State.withProg_baseTen,
      State.withProg_tookBaseTen]
    refine withReg_differInProg fun rx => ?_
    obtain ⟨m0, h0⟩ := (s.tookBaseTen (s.reg rx)).withProg_memWrite s.prog b (s.addr 0) (s.baseTen (s.reg rx)).1
    obtain ⟨m1, h1⟩ := State.withProg_memWrite _ m0 b (s.addr 1) (s.baseTen (s.reg rx)).2.1
    obtain ⟨m2, h2⟩ := State.withProg_memWrite _ m1 b (s.addr 2) (s.baseTen (s.reg rx)).2.2
    rw [h0, h1, h2]
    exact finish_differInProg _ m2 _
  | convertByteToAscii x y =>
    simp only [exec, execConvertByteToAscii]
    refine withReg_differInProg fun rx => withReg_differInProg fun ry => ?_
    rw [State.withProg_reg]
    split
    · exact raise_differInProg _
    · exact finish_differInProg _ s.prog _
  | draw x row col =>
    simp only [exec, execDraw, State.withProg_displayWrite]
    refine withReg_differInProg fun rx => ?_
    rw [State.withProg_reg]
    split
    · exact raise_differInProg _
    · split
      · exact raise_differInProg _
      · split
        · exact raise_differInProg _
        · exact finish_differInProg _ s.prog _

end Sys2Proof.Machine
end

section
/-! SUPPORT. The countdown register under atomic ticks and what READ_T loads of it (R181, R215). -/

namespace Sys2Proof.Machine

open Sys2Proof.Safety

theorem decrementT_toNat (t : Byte) : (decrementT t).toNat = t.toNat - 1 := by
  unfold decrementT
  split
  · subst t; rfl
  · bv_omega

@[simp] theorem State.countTick_T (s : State) : s.countTick.T = s.T := by
  unfold State.countTick
  split <;> rfl

/-- A tick takes one off T while it is positive (R215). -/
theorem State.tick_T_toNat (s : State) : s.tick.T.toNat = s.T.toNat - 1 := by
  simp [State.tick, decrementT_toNat]

/-- `k` ticks take `k` off T, down to 0. -/
theorem ticks_T_toNat (k : Nat) : ∀ s : State, (ticks k s).T.toNat = s.T.toNat - k := by
  induction k with
  | zero => exact fun _ => rfl
  | succ k ih =>
    intro s
    rw [ticks, ih, s.tick_T_toNat]
    omega

/-- READ_T completes with the register at T (R181). -/
theorem exec_readT_reg (s : State) (rx : Fin 8) :
    ∃ t, exec (.readT (regField rx)) s = .next t ∧ t.reg rx = (s.T.toNat : Int) :=
  ⟨(s.setReg rx (zext s.T)).moveTo (s.pc + 1), by simp [exec, execReadT, finish_eq], by simp [zext]⟩

end Sys2Proof.Machine
end

section
/-! PROOFS. The statements about the stores, the display and the order of memory accesses (spec/20_memory.md). -/

namespace Sys2Proof.Proofs

open Sys2Proof.Machine Sys2Proof.Safety

/-- Settles O41: the writers of the program store write through M, which an unwritable store refuses. -/
theorem unwritableProgramStoreNeverChanges : Obligations.UnwritableProgramStoreNeverChanges :=
  fun _ _ => step_progRead_of_unwritable

/-- Settles O44: its last clause by the two runs of an instruction under the two flags. -/
theorem programStoreReadsAndWrites : Obligations.ProgramStoreReadsAndWrites := by
  refine ⟨fun s a h => s.progRead_outside h, fun s a v hw h0 h1 => ?_,
    fun s a v h => State.progWrite_refused h v, fun i s b => ?_⟩
  · rw [State.progWrite_of_writable hw h0 h1]
    exact ⟨rfl, s.setProg_write_read h0 h1 v, ⟨rfl, rfl, rfl⟩, setProg_frame s _⟩
  · obtain ⟨t, m, ht, ht'⟩ := exec_differInProg i s b
    exact ⟨t, t.withProg m b, ht, ht', rfl, rfl, rfl, withProg_frame t m b⟩

/-- Settles O45: the flag stands in no condition of a data write. -/
theorem dataStoreReadsAndWrites : Obligations.DataStoreReadsAndWrites := by
  refine ⟨fun s a h => s.dataRead_outside h, fun s a v h0 h1 => ?_, fun s a v h => State.dataWrite_outside h v⟩
  rw [State.dataWrite_of_inside h0 h1]
  exact ⟨s.setData_write_read h0 h1 v, ⟨rfl, rfl, rfl⟩, setData_frame s _⟩

/-- Settles O46: cells that differ in column or row have different linear indices. -/
theorem displayReadsAndWrites : Obligations.DisplayReadsAndWrites :=
  ⟨fun _ _ _ h => ⟨State.displayRead_outside h, State.displayWrite_outside h⟩,
    fun s c r v hc0 hc7 hr0 hr7 => ⟨fun c' r' => s.displayWrite_read c r v c' r' ⟨hc0, hc7, hr0, hr7⟩,
      ⟨by simp, by simp, by simp⟩, displayWrite_frame s c r v⟩⟩

/-- Settles O49: the fetch after WRITE reads the program store at A. -/
theorem nextFetchSeesTheWrittenWord : Obligations.NextFetchSeesTheWrittenWord := by
  intro s rx hM hw hA
  have haddr : s.addr 0 = ((s.pc + 1 : Nat) : Int) := by rw [State.addr, zext, hA]; simp
  have hA4095 : s.A.toNat ≤ 4095 := Nat.le_of_lt_succ s.A.isLt
  refine ⟨(s.memWrite (s.addr 0) (s.reg rx)).moveTo (s.pc + 1), by simp [exec, execWrite, finish_eq], ?_⟩
  rw [State.fetch, State.moveTo_pc, State.moveTo_progRead, haddr]
  exact State.memWrite_progRead_same hM hw (by omega) (by omega) _

/-- Settles O57: SET_T leaves T at n, and the ticks take k off it, down to 0. -/
theorem readTSeesTheTicksSinceSetT : Obligations.ReadTSeesTheTicksSinceSetT := by
  intro s t n k rx h
  have hT : t.T = n := by
    obtain rfl : (s.setT n).moveTo (s.pc + 1) = t := by simpa [exec, execSetT, finish_eq] using h
    simp
  obtain ⟨u, hu, hreg⟩ := exec_readT_reg (ticks k t) rx
  exact ⟨u, hu, by rw [hreg, ticks_T_toNat, hT]⟩

end Sys2Proof.Proofs
end

section
/-! SUPPORT. The decoder on the pattern of each opcode (R91, R95), the words as such patterns, and what every word decodes
to: an instruction that has an encoding (R93), re-encoded with 0 in its ignored digits (R96, R98). -/

namespace Sys2Proof

open Sys2Proof.Safety

/-! ### Words as patterns -/

/-- What holds of each opcode's leading digit holds of every digit (R91). -/
theorem opcode_cases {P : Nibble → Prop} (store : P 0x0#4) (add : P 0x1#4) (subtract : P 0x2#4) (read : P 0x3#4)
    (write : P 0x4#4) (jump : P 0x5#4) (readKeyboard : P 0x6#4) (switchMemory : P 0x7#4) (skipEqual : P 0x8#4)
    (skipNotEqual : P 0x9#4) (setA : P 0xA#4) (setT : P 0xB#4) (readT : P 0xC#4) (convertToBaseTen : P 0xD#4)
    (convertByteToAscii : P 0xE#4) (draw : P 0xF#4) (o : Nibble) : P o := by
  obtain ⟨n, hn⟩ := o
  interval_cases n
  exacts [store, add, subtract, read, write, jump, readKeyboard, switchMemory, skipEqual, skipNotEqual, setA, setT,
    readT, convertToBaseTen, convertByteToAscii, draw]

theorem exists_digits (w : Word) : ∃ o x y z : Nibble, w = (o ++ x ++ y ++ z : BitVec _) :=
  ⟨w.op, w.x, w.y, w.z, (word_digits w).symm⟩

theorem word_byte (w : Word) : w.op ++ w.x ++ w.yz = w := by
  obtain ⟨o, x, y, z, rfl⟩ := exists_digits w
  rw [op_append4, x_append4, yz_append4]
  exact append_byte_digits o x y z

/-- A zero byte is two digits 0. -/
theorem append_zero_byte (o x : Nibble) : ((o ++ x ++ 0#8 : BitVec _) : Word) = (o ++ x ++ 0#4 ++ 0#4 : BitVec _) :=
  append_byte_digits o x 0 0

/-- Only in the zero word are all of STORE's bits 0. -/
theorem append_byte_eq_zero {x : Nibble} {b : Byte} (h : ((0x0#4 ++ x ++ b : BitVec _) : Word) = 0) :
    x = 0 ∧ b = 0 :=
  ⟨(x_append_byte 0 x b).symm.trans (congrArg Word.x h), (yz_append_byte 0 x b).symm.trans (congrArg Word.yz h)⟩

/-! ### The instruction of each pattern -/

section
variable (x y z : Nibble) (imm : Byte) (a : Addr)

theorem decode_store (h : ¬(x = 0 ∧ imm = 0)) : decode (0x0#4 ++ x ++ imm) = .store x imm := by
  rw [decode, if_neg fun h0 => h (append_byte_eq_zero h0)]
  simp [dispatch, op_append_byte, x_append_byte, yz_append_byte]

theorem decode_add : decode (0x1#4 ++ x ++ y ++ z) = .add x y z := by
  rw [decode_append4 (by decide)]
  simp [dispatch, op_append4, x_append4, y_append4, z_append4]

theorem decode_subtract : decode (0x2#4 ++ x ++ y ++ z) = .subtract x y z := by
  rw [decode_append4 (by decide)]
  simp [dispatch, op_append4, x_append4, y_append4, z_append4]

theorem decode_read : decode (0x3#4 ++ x ++ y ++ z) = .read x := by
  rw [decode_append4 (by decide)]
  simp [dispatch, op_append4, x_append4]

theorem decode_write : decode (0x4#4 ++ x ++ y ++ z) = .write x := by
  rw [decode_append4 (by decide)]
  simp [dispatch, op_append4, x_append4]

theorem decode_jump : decode (0x5#4 ++ a) = .jump a := by
  rw [decode_append_addr (by decide)]
  simp [dispatch, op_append_addr, xyz_append_addr]

theorem decode_readKeyboard : decode (0x6#4 ++ x ++ y ++ z) = .readKeyboard x := by
  rw [decode_append4 (by decide)]
  simp [dispatch, op_append4, x_append4]

theorem decode_switchMemory : decode (0x7#4 ++ x ++ y ++ z) = .switchMemory := by
  rw [decode_append4 (by decide)]
  simp [dispatch, op_append4]

theorem decode_skipEqual : decode (0x8#4 ++ x ++ y ++ z) = .skipEqual x y := by
  rw [decode_append4 (by decide)]
  simp [dispatch, op_append4, x_append4, y_append4]

theorem decode_skipNotEqual : decode (0x9#4 ++ x ++ y ++ z) = .skipNotEqual x y := by
  rw [decode_append4 (by decide)]
  simp [dispatch, op_append4, x_append4, y_append4]

theorem decode_setA : decode (0xA#4 ++ a) = .setA a := by
  rw [decode_append_addr (by decide)]
  simp [dispatch, op_append_addr, xyz_append_addr]

theorem decode_setT : decode (0xB#4 ++ x ++ imm) = .setT imm := by
  rw [decode_append_byte (by decide)]
  simp [dispatch, op_append_byte, yz_append_byte]

theorem decode_readT : decode (0xC#4 ++ x ++ y ++ z) = .readT x := by
  rw [decode_append4 (by decide)]
  simp [dispatch, op_append4, x_append4]

theorem decode_convertToBaseTen : decode (0xD#4 ++ x ++ y ++ z) = .convertToBaseTen x := by
  rw [decode_append4 (by decide)]
  simp [dispatch, op_append4, x_append4]

theorem decode_convertByteToAscii : decode (0xE#4 ++ x ++ y ++ z) = .convertByteToAscii x y := by
  rw [decode_append4 (by decide)]
  simp [dispatch, op_append4, x_append4, y_append4]

theorem decode_draw : decode (0xF#4 ++ x ++ y ++ z) = .draw x y z := by
  rw [decode_append4 (by decide)]
  simp [dispatch, op_append4, x_append4, y_append4, z_append4]

end

/-! ### Round trips -/

/-- Every instruction that has an encoding is what its encoding decodes to (R91, R93, R96). -/
theorem decode_encode {i : Instr} (h : i.wellFormed = true) : decode (encode i) = i := by
  cases i with
  | halt => rfl
  | store x imm => exact decode_store x imm fun ⟨hx, himm⟩ => by simp [Instr.wellFormed, hx, himm] at h
  | add x y z => exact decode_add x y z
  | subtract x y z => exact decode_subtract x y z
  | read x => rw [encode, append_zero_byte]; exact decode_read x 0 0
  | write x => rw [encode, append_zero_byte]; exact decode_write x 0 0
  | jump a => exact decode_jump a
  | readKeyboard x => rw [encode, append_zero_byte]; exact decode_readKeyboard x 0 0
  | switchMemory => exact decode_switchMemory 0 0 0
  | skipEqual x y => exact decode_skipEqual x y 0
  | skipNotEqual x y => exact decode_skipNotEqual x y 0
  | setA a => exact decode_setA a
  | setT imm => exact decode_setT 0 imm
  | readT x => rw [encode, append_zero_byte]; exact decode_readT x 0 0
  | convertToBaseTen x => rw [encode, append_zero_byte]; exact decode_convertToBaseTen x 0 0
  | convertByteToAscii x y => exact decode_convertByteToAscii x y 0
  | draw x row col => exact decode_draw x row col

/-- Every word's instruction, encoded, is the word with 0 in the bits its opcode ignores (R96, R98). -/
theorem encode_decode (w : Word) : encode (decode w) = w &&& usedBits w.op := by
  obtain ⟨o, x, y, z, rfl⟩ := exists_digits w
  rw [op_append4]
  have all (v : Word) : v &&& 0xFFFF = v := BitVec.and_allOnes
  induction o using opcode_cases with
  | store =>
    refine Eq.trans ?_ (all _).symm
    rw [← append_byte_digits]
    by_cases h : x = 0 ∧ (y ++ z : Byte) = 0
    · rw [h.1, h.2]; rfl
    · rw [decode_store x _ h]; rfl
  | add => rw [decode_add]; exact (all _).symm
  | subtract => rw [decode_subtract]; exact (all _).symm
  | read => rw [decode_read]; exact (append4_and_FF00 _ x y z).symm
  | write => rw [decode_write]; exact (append4_and_FF00 _ x y z).symm
  | jump => rw [← append_addr_digits, decode_jump]; exact (all _).symm
  | readKeyboard => rw [decode_readKeyboard]; exact (append4_and_FF00 _ x y z).symm
  | switchMemory => rw [decode_switchMemory]; exact (append4_and_F000 0x7#4 x y z).symm
  | skipEqual => rw [decode_skipEqual]; exact (append4_and_FFF0 _ x y z).symm
  | skipNotEqual => rw [decode_skipNotEqual]; exact (append4_and_FFF0 _ x y z).symm
  | setA => rw [← append_addr_digits, decode_setA]; exact (all _).symm
  | setT =>
    refine Eq.trans ?_ (append4_and_F0FF _ x y z).symm
    rw [← append_byte_digits, ← append_byte_digits, decode_setT]
    rfl
  | readT => rw [decode_readT]; exact (append4_and_FF00 _ x y z).symm
  | convertToBaseTen => rw [decode_convertToBaseTen]; exact (append4_and_FF00 _ x y z).symm
  | convertByteToAscii => rw [decode_convertByteToAscii]; exact (append4_and_FFF0 _ x y z).symm
  | draw => rw [decode_draw]; exact (all _).symm

/-! ### What a word decodes to -/

/-- The dispatcher on a nonzero word answers an instruction that has an encoding: STORE r0, 0x00 is the zero word. -/
theorem dispatch_wellFormed {w : Word} (h : w ≠ 0) : (dispatch w).wellFormed = true := by
  unfold dispatch
  split
  case h_1 hop =>
    have hw : w = (0x0#4 ++ w.x ++ w.yz : BitVec _) := by
      conv_lhs => rw [← word_byte w, BitVec.eq_of_toNat_eq (y := 0x0#4) hop]
    by_contra hz
    obtain ⟨hx, hyz⟩ : w.x = 0 ∧ w.yz = 0 := by simpa [Instr.wellFormed] using hz
    exact h (by rw [hw, hx, hyz]; rfl)
  all_goals rfl

theorem decode_wellFormed (w : Word) : (decode w).wellFormed = true := by
  unfold decode
  split
  · rfl
  · exact dispatch_wellFormed ‹_›

/-- Only the zero word decodes to HALT (R93). -/
theorem decode_eq_halt_iff {w : Word} : decode w = .halt ↔ w = 0 := by
  unfold decode
  split
  · simp [*]
  · rename_i h
    exact iff_of_false (Safety.dispatch_ne_halt w) h

/-- The decoder accepts every integer in 0..0xFFFF (R92). -/
theorem decodeStoreWord_of_inside {w : Int} (h0 : 0 ≤ w) (h1 : w ≤ 0xFFFF) :
    decodeStoreWord w = .ok (decode (BitVec.ofNat 16 w.toNat)) := if_pos ⟨h0, h1⟩

/-- It rejects every other integer, naming it (R92). -/
theorem decodeStoreWord_outside {w : Int} (h : w < 0 ∨ 0xFFFF < w) :
    decodeStoreWord w = .error (.unknownInstruction w) := if_neg (by omega)

theorem decodeStoreWord_toNat (w : Word) : decodeStoreWord (w.toNat : Int) = .ok (decode w) := by
  have hlt : w.toNat < 2 ^ 16 := w.isLt
  rw [decodeStoreWord_of_inside (by omega) (by omega)]
  simp

end Sys2Proof
end

section
/-! SUPPORT. The check of register fields: an instruction faults on the first of its fields that names no register, in
field order and before anything else (R21, R104). -/

namespace Sys2Proof.Safety

open Sys2Proof.Machine

/-- The outcome is the next state in which fault `f` is taken. -/
def TakesFault (f : FatalFault) (s : State) (o : Host.Outcome State Fault Refusal) : Prop :=
  ∃ t, o = .next t ∧ FaultTaken f s t

section
variable {s : State} {f : FatalFault}

theorem takesFault_raise (s : State) (f : FatalFault) : TakesFault f s (raise f s) := ⟨_, rfl, s.takeFault_taken f⟩

/-- With no field left to check there is no bad one. -/
theorem takesFault_nil {o : Host.Outcome State Fault Refusal} (h : firstBadRegister [] = some f) : TakesFault f s o :=
  nomatch h

/-- A checked field takes the fault of the first bad one of it and the fields after it, if the rest of the instruction
does so for those. -/
theorem takesFault_withReg {F : OperandField} {i : Nibble} {rest : List (OperandField × Nibble)}
    {k : Fin 8 → Host.Outcome State Fault Refusal} (h : firstBadRegister ((F, i) :: rest) = some f)
    (hk : ∀ r, firstBadRegister rest = some f → TakesFault f s (k r)) : TakesFault f s (withReg F i s k) := by
  unfold firstBadRegister at h
  rcases eq_regField_or_bad i with ⟨r, rfl⟩ | hb
  · rw [if_neg (by rw [regField_toNat]; omega)] at h
    simpa using hk r h
  · rw [if_pos hb] at h
    cases h
    rw [withReg_bad s hb]
    exact takesFault_raise s _

end

/-- The fields of an instruction that name registers, in field order (R91). -/
def registerFields : Instr → List (OperandField × Nibble)
  | .halt | .jump _ | .switchMemory | .setA _ | .setT _ => []
  | .store x _ | .read x | .write x | .readKeyboard x | .readT x | .convertToBaseTen x | .draw x _ _ => [(.X, x)]
  | .skipEqual x y | .skipNotEqual x y | .convertByteToAscii x y => [(.X, x), (.Y, y)]
  | .add x y z | .subtract x y z => [(.X, x), (.Y, y), (.Z, z)]

/-- Every instruction checks its register fields before all else (R21, R94, R104). -/
theorem exec_checksRegisters (i : Instr) : ChecksRegisters i (registerFields i) := by
  intro s f hf
  change TakesFault f s (exec i s)
  cases i with
  | halt | jump | switchMemory | setA | setT => exact takesFault_nil hf
  | store | read | write | readKeyboard | readT | convertToBaseTen | draw =>
    simp only [exec, execStore, execRead, execWrite, execReadKeyboard, execReadT, execConvertToBaseTen, execDraw]
    exact takesFault_withReg hf fun _ => takesFault_nil
  | skipEqual | skipNotEqual | convertByteToAscii =>
    simp only [exec, execSkipEqual, execSkipNotEqual, execConvertByteToAscii]
    exact takesFault_withReg hf fun _ hf => takesFault_withReg hf fun _ => takesFault_nil
  | add | subtract =>
    simp only [exec, execAdd, execSubtract]
    exact takesFault_withReg hf fun _ hf => takesFault_withReg hf fun _ hf => takesFault_withReg hf fun _ =>
      takesFault_nil

end Sys2Proof.Safety
end

section
/-! SUPPORT. What each instruction answers at registers that exist, and what the updates among these answers are. -/

namespace Sys2Proof.Machine

open Sys2Proof.Safety

theorem State.addr_eq (s : State) (k : Int) : s.addr k = (s.A.toNat : Int) + k := rfl

/-- The three writes of CONVERT_TO_BASE_TEN (R124). -/
def State.writeThree (s : State) (h u o : Int) : State :=
  ((s.memWrite (s.addr 0) h).memWrite (s.addr 1) u).memWrite (s.addr 2) o

section
variable (s : State) (rx ry rz : Fin 8)

/-! ### Instructions at registers that exist -/

theorem exec_store (imm : Byte) :
    exec (.store (regField rx) imm) s = .next ((s.setReg rx (zext imm)).moveTo (s.pc + 1)) := by
  simp [exec, execStore, finish_eq]

theorem exec_add : exec (.add (regField rx) (regField ry) (regField rz)) s =
    .next ((s.setReg rz (s.reg rx + s.reg ry)).moveTo (s.pc + 1)) := by
  simp [exec, execAdd, finish_eq]

theorem exec_subtract : exec (.subtract (regField rx) (regField ry) (regField rz)) s =
    .next ((s.setReg rz (s.reg rx - s.reg ry)).moveTo (s.pc + 1)) := by
  simp [exec, execSubtract, finish_eq]

theorem exec_read : exec (.read (regField rx)) s =
    .next ((s.setReg rx (s.memRead (s.addr 0))).moveTo (s.pc + 1)) := by
  simp [exec, execRead, finish_eq]

theorem exec_write : exec (.write (regField rx)) s =
    .next ((s.memWrite (s.addr 0) (s.reg rx)).moveTo (s.pc + 1)) := by
  simp [exec, execWrite, finish_eq]

theorem exec_jump_even {a : Addr} (h : a.toNat % 2 = 0) : exec (.jump a) s = .next (s.moveTo a.toNat) := by
  simp [exec, execJump, finish_eq, h]

theorem exec_jump_odd {a : Addr} (h : a.toNat % 2 = 1) : exec (.jump a) s = raise (.invalidJumpTarget a) s :=
  if_pos h

theorem exec_readKeyboard : exec (.readKeyboard (regField rx)) s =
    .next ((((s.emit .prompt).tookKey).setReg rx (zext s.nextKey)).moveTo (s.pc + 1)) := by
  simp [exec, execReadKeyboard, finish_eq]

theorem exec_skipEqual : exec (.skipEqual (regField rx) (regField ry)) s =
    .next (s.moveTo (if s.reg rx = s.reg ry then s.pc + 2 else s.pc + 1)) := by
  by_cases h : s.reg rx = s.reg ry <;> simp [exec, execSkipEqual, finish_eq, skipIf, conditionEqual, h]

theorem exec_skipNotEqual : exec (.skipNotEqual (regField rx) (regField ry)) s =
    .next (s.moveTo (if s.reg rx = s.reg ry then s.pc + 1 else s.pc + 2)) := by
  by_cases h : s.reg rx = s.reg ry <;> simp [exec, execSkipNotEqual, finish_eq, skipIf, conditionNotEqual, h]

theorem exec_setT (imm : Byte) : exec (.setT imm) s = .next ((s.setT imm).moveTo (s.pc + 1)) := rfl

theorem exec_readT : exec (.readT (regField rx)) s =
    .next ((s.setReg rx (zext s.T)).moveTo (s.pc + 1)) := by
  simp [exec, execReadT, finish_eq]

theorem exec_convertByteToAscii : exec (.convertByteToAscii (regField rx) (regField ry)) s =
    if s.reg rx < 0 ∨ 15 < s.reg rx then
      raise (.operandOutOfRange .convertByteToAscii (.source rx) (s.reg rx)) s
    else .next ((s.setReg ry (asciiOfDigit (s.reg rx))).moveTo (s.pc + 1)) := by
  simp [exec, execConvertByteToAscii, finish_eq]

theorem exec_draw (row col : Nibble) : exec (.draw (regField rx) row col) s =
    if s.reg rx < 0 ∨ 127 < s.reg rx then raise (.operandOutOfRange .draw (.source rx) (s.reg rx)) s
    else if 7 < row.toNat then raise (.operandOutOfRange .draw .row (zext row)) s
    else if 7 < col.toNat then raise (.operandOutOfRange .draw .column (zext col)) s
    else .next ((s.displayWrite (zext col) (zext row) (s.reg rx)).moveTo (s.pc + 1)) := by
  simp [exec, execDraw, finish_eq]

theorem exec_convertToBaseTen : exec (.convertToBaseTen (regField rx)) s =
    .next (((s.tookBaseTen (s.reg rx)).writeThree (s.baseTen (s.reg rx)).1 (s.baseTen (s.reg rx)).2.1
      (s.baseTen (s.reg rx)).2.2).moveTo (s.pc + 1)) := by
  simp [exec, execConvertToBaseTen, finish_eq, State.writeThree, State.addr_eq]

end

/-! ### What the updates among the answers are -/

section
variable {s : State}

/-- Moving pc, no event having been emitted, completes the instruction silently. -/
theorem State.moveTo_completed_silent {u : State} (hr : u.run = s.run) (ho : u.out = s.out) (a : Nat) :
    CompletedAt a [] s (u.moveTo a) := s.moveTo_completed u a [] hr (by simp [ho])

/-- A register written and pc moved: the register holds the value, and nothing else changes. -/
theorem State.setReg_moveTo_spec (s : State) (d : Fin 8) (v : Int) (a : Nat) :
    RegSet d v s ((s.setReg d v).moveTo a) ∧ CompletedAt a [] s ((s.setReg d v).moveTo a) ∧
      Frame [.regs] s ((s.setReg d v).moveTo a) :=
  ⟨⟨by simp, fun k hk => by simp [hk]⟩, State.moveTo_completed_silent (by simp) (by simp) a,
    (setReg_frame s d v).moveTo a⟩

theorem State.moveTo_spec (s : State) (a : Nat) : CompletedAt a [] s (s.moveTo a) ∧ Frame [] s (s.moveTo a) :=
  ⟨State.moveTo_completed_silent rfl rfl a, moveTo_frame s a⟩

/-! ### The store M selects at A -/

theorem State.addr_zero (s : State) : s.addr 0 = (s.A.toNat : Int) := by rw [State.addr_eq, Int.add_zero]

theorem State.A_le (s : State) : (s.A.toNat : Int) ≤ 4095 := by
  have : s.A.toNat < 2 ^ 12 := s.A.isLt
  omega

/-- A write at A reaches the data store exactly when M = 0 (R67). -/
theorem State.memWrite_A_dataRead (s : State) (v b : Int) : (s.memWrite (s.addr 0) v).dataRead b =
    if s.M = 0 ∧ b = (s.A.toNat : Int) then v else s.dataRead b := by
  simp [State.memWrite_dataRead, State.addr_zero, s.A_le]

/-- A write at A reaches the program store exactly when M = 1 and the store is writable (R63, R67). -/
theorem State.memWrite_A_progRead (s : State) (v b : Int) : (s.memWrite (s.addr 0) v).progRead b =
    if s.M = 1 ∧ s.cfg.romWritable = true ∧ b = (s.A.toNat : Int) then v else s.progRead b := by
  simp [State.memWrite_progRead, State.addr_zero, s.A_le]

/-- Three writes in a row at `a`, `a + 1`, `a + 2`, each one that lands (`P`) dropped past 4095 (R75, decision D16). -/
theorem three_writes_read (P : Prop) [Decidable P] (a b h u o d : Int) :
    (if P ∧ 0 ≤ a + 2 ∧ a + 2 ≤ 4095 ∧ b = a + 2 then o
      else if P ∧ 0 ≤ a + 1 ∧ a + 1 ≤ 4095 ∧ b = a + 1 then u
      else if P ∧ 0 ≤ a ∧ a ≤ 4095 ∧ b = a then h else d) =
    if ¬(P ∧ 0 ≤ b ∧ b ≤ 4095) then d else if b = a then h else if b = a + 1 then u
      else if b = a + 2 then o else d := by
  have lands (c : Int) : (P ∧ 0 ≤ c ∧ c ≤ 4095 ∧ b = c) ↔ (P ∧ 0 ≤ b ∧ b ≤ 4095) ∧ b = c :=
    ⟨fun ⟨hP, h0, h1, hb⟩ => ⟨⟨hP, hb ▸ h0, hb ▸ h1⟩, hb⟩, fun ⟨⟨hP, h0, h1⟩, hb⟩ => ⟨hP, hb ▸ h0, hb ▸ h1, hb⟩⟩
  simp only [lands]
  by_cases hP : P ∧ 0 ≤ b ∧ b ≤ 4095
  · simp only [hP, and_self, true_and, not_true, if_false]
    split_ifs <;> omega
  · simp only [hP, false_and, not_false_iff, if_true, if_false]

theorem State.writeThree_dataRead (s : State) (h u o b : Int) : (s.writeThree h u o).dataRead b =
    if ¬(s.M = 0 ∧ 0 ≤ b ∧ b ≤ 4095) then s.dataRead b
    else if b = (s.A.toNat : Int) then h
    else if b = (s.A.toNat : Int) + 1 then u
    else if b = (s.A.toNat : Int) + 2 then o
    else s.dataRead b := by
  rw [← three_writes_read]
  simp only [State.writeThree, State.memWrite_dataRead, State.memWrite_M, State.addr_eq, Int.add_zero]

theorem State.writeThree_progRead (s : State) (h u o b : Int) : (s.writeThree h u o).progRead b =
    if ¬(s.M = 1 ∧ s.cfg.romWritable = true ∧ 0 ≤ b ∧ b ≤ 4095) then s.progRead b
    else if b = (s.A.toNat : Int) then h
    else if b = (s.A.toNat : Int) + 1 then u
    else if b = (s.A.toNat : Int) + 2 then o
    else s.progRead b := by
  have h3 := three_writes_read (s.M = 1 ∧ s.cfg.romWritable = true) s.A.toNat b h u o (s.progRead b)
  simp only [and_assoc] at h3
  rw [← h3]
  simp only [State.writeThree, State.memWrite_progRead, State.memWrite_M, State.memWrite_cfg, State.addr_eq,
    Int.add_zero]

@[simp] theorem State.writeThree_run (s : State) (h u o : Int) : (s.writeThree h u o).run = s.run := by
  simp [State.writeThree]

@[simp] theorem State.writeThree_out (s : State) (h u o : Int) : (s.writeThree h u o).out = s.out := by
  simp [State.writeThree]

@[simp] theorem State.writeThree_draws (s : State) (h u o : Int) : (s.writeThree h u o).draws = s.draws := by
  simp [State.writeThree]

/-! ### Draws -/

@[simp] theorem State.emit_nextKey (s : State) (e : Event) : (s.emit e).nextKey = s.nextKey := rfl

/-- A scripted answer is the next one, and is consumed (R160). -/
theorem State.tookKey_of_scripted {k : Byte} {ks : List Byte} (h : s.draws.keys = k :: ks) :
    s.nextKey = k ∧ s.tookKey.draws.keys = ks ∧ s.tookKey.draws.keyCount = s.draws.keyCount := by
  simp [State.nextKey, State.tookKey, h]

@[simp] theorem State.tookKey_turnCount (s : State) : s.tookKey.draws.turnCount = s.draws.turnCount := by
  unfold State.tookKey
  split <;> rfl

@[simp] theorem State.tookKey_wideCount (s : State) : s.tookKey.draws.wideCount = s.draws.wideCount := by
  unfold State.tookKey
  split <;> rfl

@[simp] theorem State.tookBaseTen_keys (s : State) (v : Int) : (s.tookBaseTen v).draws.keys = s.draws.keys := by
  unfold State.tookBaseTen
  split <;> rfl

@[simp] theorem State.tookBaseTen_turnCount (s : State) (v : Int) :
    (s.tookBaseTen v).draws.turnCount = s.draws.turnCount := by
  unfold State.tookBaseTen
  split <;> rfl

@[simp] theorem State.tookBaseTen_keyCount (s : State) (v : Int) :
    (s.tookBaseTen v).draws.keyCount = s.draws.keyCount := by
  unfold State.tookBaseTen
  split <;> rfl

/-- Inside 0..999 the three values are the decimal digits (R124). -/
theorem State.baseTen_inside {v : Int} (h : 0 ≤ v ∧ v ≤ 999) : s.baseTen v = (v / 100, v / 10 % 10, v % 10) := if_pos h

/-! ### The fetch -/

/-- The running Engine at an integer that is no instruction word takes the fault that names it (R92, R205). -/
theorem engineRun_of_unknown (h : s.fetch < 0 ∨ 0xFFFF < s.fetch) :
    engineRun s = .next (s.takeFault (.unknownInstruction s.fetch)) := by
  have h0 : s.fetch ≠ 0 := by omega
  rw [engineRun, if_neg h0, decodeStoreWord_outside h]
  rfl

end

end Sys2Proof.Machine
end

section
/-! PROOFS. The statements about the decoder and the encoder, and about each instruction: its encoding, its effect and
frame, its faults (spec/30_encoding.md, with spec/40_register_alu.md to spec/44_timer.md). -/

namespace Sys2Proof.Proofs

open Sys2Proof.Machine Sys2Proof.Safety

/-! ### Decoder and encoder -/

/-- Settles O1, by running the decoder on each word. -/
theorem sampleWordsDecode : Obligations.SampleWordsDecode := by
  unfold Obligations.SampleWordsDecode
  decide

/-- Settles O2, from the decoder on each opcode's pattern. -/
theorem decodeOfEncodeIsIdentity : Obligations.DecodeOfEncodeIsIdentity := fun _ => decode_encode

/-- Settles O3, by the word's leading digit. -/
theorem reencodingReproducesTheUsedFields : Obligations.ReencodingReproducesTheUsedFields := encode_decode

/-- Settles O4: the used bits are the re-encoding, which decodes to the instruction it came from. -/
theorem ignoredDigitsAreIgnored : Obligations.IgnoredDigitsAreIgnored := by
  intro v w h
  calc decode v = decode (encode (decode v)) := (decode_encode (decode_wellFormed v)).symm
    _ = decode (encode (decode w)) := by rw [encode_decode, encode_decode, h]
    _ = decode w := decode_encode (decode_wellFormed w)

/-- Settles O5: STORE r0, 0x00, the one ill-formed instruction, has the bits of the zero word. -/
theorem everyWordDecodes : Obligations.EveryWordDecodes :=
  fun w => ⟨decode_wellFormed w, decode_eq_halt_iff, decodeStoreWord_toNat w⟩

/-! ### Register and ALU family -/

/-- Settles O7: the zero word is the one operand pair without its pattern. -/
theorem storeLoadsALiteralByte : Obligations.StoreLoadsALiteralByte :=
  ⟨decode_store, fun s rx imm => ⟨_, exec_store s rx imm, s.setReg_moveTo_spec _ _ _⟩,
    fun _ _ => exec_checksRegisters _⟩

/-- Settles O8: both sources are read before the write, so the three registers may be equal. -/
theorem addWritesTheExactSum : Obligations.AddWritesTheExactSum :=
  ⟨decode_add, fun s rx ry rz => ⟨_, exec_add s rx ry rz, s.setReg_moveTo_spec _ _ _⟩,
    fun _ _ _ => exec_checksRegisters _⟩

/-- Settles O9: as for ADD. -/
theorem subtractWritesTheExactDifference : Obligations.SubtractWritesTheExactDifference :=
  ⟨decode_subtract, fun s rx ry rz => ⟨_, exec_subtract s rx ry rz, s.setReg_moveTo_spec _ _ _⟩,
    fun _ _ _ => exec_checksRegisters _⟩

/-- Settles O10: the value is checked after both register fields. -/
theorem convertByteToAsciiGivesTheDigitCode : Obligations.ConvertByteToAsciiGivesTheDigitCode := by
  refine ⟨decode_convertByteToAscii, fun s rx ry => ?_, fun _ _ => exec_checksRegisters _⟩
  rw [exec_convertByteToAscii]
  split
  · exact takesFault_raise s _
  · exact ⟨_, rfl, s.setReg_moveTo_spec _ _ _⟩

/-! ### Memory family -/

/-- Settles O11: A is always within the store. -/
theorem readLoadsFromTheSelectedStore : Obligations.ReadLoadsFromTheSelectedStore := by
  refine ⟨decode_read, fun s rx => ⟨_, exec_read s rx, ?_⟩, fun _ => exec_checksRegisters _⟩
  rw [← State.addr_zero]
  exact s.setReg_moveTo_spec _ _ _

/-- Settles O12: the write through M is dropped only at an unwritable program store, A being within both stores. -/
theorem writeStoresToTheSelectedStore : Obligations.WriteStoresToTheSelectedStore := by
  refine ⟨decode_write, fun s rx => ⟨_, exec_write s rx, fun a => ?_, fun a => ?_,
    State.moveTo_completed_silent (by simp) (by simp) _, (memWrite_frame s _ _).moveTo _⟩,
    fun _ => exec_checksRegisters _⟩
  · rw [State.moveTo_dataRead, State.memWrite_A_dataRead]
  · rw [State.moveTo_progRead, State.memWrite_A_progRead]

/-- Settles O15: of the three writes in a row, those past 4095 are dropped; the draw is made only outside 0..999. -/
theorem convertToBaseTenWritesThreeDigits : Obligations.ConvertToBaseTenWritesThreeDigits := by
  refine ⟨decode_convertToBaseTen, fun s rx => ⟨_, exec_convertToBaseTen s rx,
    ⟨(s.baseTen (s.reg rx)).1, (s.baseTen (s.reg rx)).2.1, (s.baseTen (s.reg rx)).2.2, fun hin => ?_, fun a => ?_,
      fun a => ?_⟩, by simp, by simp, by simp, by simp, State.moveTo_completed_silent (by simp) (by simp) _,
    exec_frame (exec_convertToBaseTen s rx)⟩, fun _ => exec_checksRegisters _⟩
  · simp [State.baseTen_inside hin, State.tookBaseTen_draws_in s hin]
  · simp only [State.moveTo_dataRead, State.writeThree_dataRead, State.tookBaseTen_dataRead, State.tookBaseTen_M,
      State.tookBaseTen_A]
  · simp only [State.moveTo_progRead, State.writeThree_progRead, State.tookBaseTen_progRead, State.tookBaseTen_M,
      State.tookBaseTen_A, State.tookBaseTen_cfg]

/-! ### Control family -/

/-- Settles O16: a 12-bit target never exhausts pc. -/
theorem jumpGoesExactlyToAnEvenAddress : Obligations.JumpGoesExactlyToAnEvenAddress := by
  refine ⟨decode_jump, fun s a h => ?_, fun s a h => ?_⟩
  · obtain ⟨hc, hframe⟩ := s.moveTo_spec a.toNat
    obtain ⟨hrun, hout⟩ := hc.goesOn a.isLt
    exact ⟨_, exec_jump_even s h, hc.pc, hrun, by simpa using hout, hframe⟩
  · rw [exec_jump_odd s h]
    exact takesFault_raise s _

/-- Settles O17: the skip writes no part. -/
theorem skipEqualSkipsOnEqualRegisters : Obligations.SkipEqualSkipsOnEqualRegisters :=
  ⟨decode_skipEqual, fun s rx ry => ⟨_, exec_skipEqual s rx ry, s.moveTo_spec _⟩,
    fun _ _ => exec_checksRegisters _⟩

/-- Settles O18: as for SKIP_EQUAL. -/
theorem skipNotEqualSkipsOnDifferentRegisters : Obligations.SkipNotEqualSkipsOnDifferentRegisters :=
  ⟨decode_skipNotEqual, fun s rx ry => ⟨_, exec_skipNotEqual s rx ry, s.moveTo_spec _⟩,
    fun _ _ => exec_checksRegisters _⟩

/-! ### Input/output family -/

/-- Settles O19: the answer is the next one, scripted or free. -/
theorem readKeyboardStoresTheHostsByte : Obligations.ReadKeyboardStoresTheHostsByte := by
  refine ⟨decode_readKeyboard, fun s rx => ⟨_, exec_readKeyboard s rx,
    ⟨s.nextKey, fun k ks h => ?_, by simp [zext], fun j hj => by simp [hj]⟩, by simp, by simp, by simp,
    s.moveTo_completed _ _ _ (by simp) (by simp), exec_frame (exec_readKeyboard s rx)⟩, fun _ => exec_checksRegisters _⟩
  simpa using State.tookKey_of_scripted (s := s.emit .prompt) h

/-- Settles O20: the value, the row and the column are checked in this order, after the register field. -/
theorem drawWritesOneCell : Obligations.DrawWritesOneCell := by
  refine ⟨decode_draw, fun s rx row col => ?_, fun _ _ _ => exec_checksRegisters _⟩
  rw [exec_draw]
  split
  · exact takesFault_raise s _
  · split
    · exact takesFault_raise s _
    · split
      · exact takesFault_raise s _
      · refine ⟨_, rfl, fun c r => ?_, State.moveTo_completed_silent (by simp) (by simp) _,
          (displayWrite_frame s _ _ _).moveTo _⟩
        rw [State.moveTo_displayRead]
        exact s.displayWrite_read _ _ _ c r (by simp only [zext]; omega)

/-! ### Timer family -/

/-- Settles O22: SET_T completes from every state. -/
theorem setTLoadsTheCountdown : Obligations.SetTLoadsTheCountdown :=
  ⟨decode_setT, fun s imm => ⟨_, exec_setT s imm, by simp, State.moveTo_completed_silent (by simp) (by simp) _,
    (setT_frame s imm).moveTo _⟩⟩

/-- Settles O23: T is zero-extended. -/
theorem readTReadsTheCountdown : Obligations.ReadTReadsTheCountdown :=
  ⟨decode_readT, fun s rx => ⟨_, exec_readT s rx, s.setReg_moveTo_spec _ _ _⟩,
    fun _ => exec_checksRegisters _⟩

/-! ### Pseudo-instructions and the fetch -/

/-- Settles O24: NOP compares a register with itself, and CLR subtracts one from itself. -/
theorem pseudoInstructionsExpand : Obligations.PseudoInstructionsExpand := by
  refine ⟨rfl, rfl, fun _ => rfl, fun s => ⟨_, rfl, rfl⟩, fun s => ?_, fun s rx => ?_⟩
  · have hnop : exec (Pseudo.expand .nop) s = .next (s.moveTo (s.pc + 1)) :=
      (exec_skipNotEqual s 0 0).trans (by rw [if_pos rfl])
    exact ⟨_, hnop, s.moveTo_spec _⟩
  · have hclr : exec (Pseudo.expand (.clr (regField rx))) s = .next ((s.setReg rx 0).moveTo (s.pc + 1)) :=
      (exec_subtract s rx rx rx).trans (by rw [Int.sub_self])
    obtain ⟨hreg, hc, -⟩ := s.setReg_moveTo_spec rx 0 (s.pc + 1)
    exact ⟨_, hclr, hreg, hc⟩

/-- Settles O27: the fault writes no part, so it stays in the range. -/
theorem unknownWordsFaultAtFetch : Obligations.UnknownWordsFaultAtFetch := by
  refine ⟨fun w h0 h1 => ⟨_, decodeStoreWord_of_inside h0 h1⟩, fun s hn hr hs hw =>
    ⟨s.tookTurn.takeFault (.unknownInstruction s.fetch), ?_, s.tookTurn.takeFault_taken _⟩⟩
  have hfits : (s.tookTurn.takeFault (.unknownInstruction s.fetch)).fits = true := s.tookTurn_fits.trans hs
  rw [step_engine_running hn hr, engineRun_of_unknown (by simpa [State.fetch] using hw), State.tookTurn_fetch,
    State.guardWidth_of_fits (by simpa using hs), if_pos hfits]

end Sys2Proof.Proofs
end

section
/-! SUPPORT. What SWITCH_MEMORY and SET_A answer, and the toggle of the mode register (R122, R123). -/

namespace Sys2Proof.Machine

theorem exec_switchMemory (s : State) : exec .switchMemory s = .next ((s.setM (1 - s.M)).moveTo (s.pc + 1)) := rfl

theorem exec_setA (s : State) (imm : Addr) : exec (.setA imm) s = .next ((s.setA imm).moveTo (s.pc + 1)) := rfl

/-- In one bit, 1 − m does not wrap. -/
theorem one_sub_mode_toNat (m : BitVec 1) : ((1 - m).toNat : Int) = 1 - (m.toNat : Int) := by
  rcases BitVec.eq_zero_or_eq_one m with rfl | rfl
  · rfl
  · rfl

end Sys2Proof.Machine
end

section
/-! PROOFS. The statements about SWITCH_MEMORY and SET_A (spec/41_memory_access.md). -/

namespace Sys2Proof.Proofs

open Sys2Proof.Machine Sys2Proof.Safety

/-- Settles O13: 1 − M is taken in one bit, where it does not wrap. -/
theorem switchMemoryTogglesTheMode : Obligations.SwitchMemoryTogglesTheMode :=
  ⟨decode_switchMemory, fun s => ⟨_, exec_switchMemory s, by simpa using one_sub_mode_toNat s.M,
    State.moveTo_completed_silent (by simp) (by simp) _, (setM_frame s _).moveTo _⟩⟩

/-- Settles O14: SET_A completes from every state. -/
theorem setALoadsTheAddressRegister : Obligations.SetALoadsTheAddressRegister :=
  ⟨decode_setA, fun s imm => ⟨_, exec_setA s imm, by simp, State.moveTo_completed_silent (by simp) (by simp) _,
    (setA_frame s imm).moveTo _⟩⟩

end Sys2Proof.Proofs
end

section
/-! SUPPORT. The hexadecimal digits, the reference conversion of a keyboard line, and the answer that was scripted as one
(decision D7, R160). -/

namespace Sys2Proof.Machine

open Sys2Proof.Safety

/-- A character is listed when its code is among the codes of the list. -/
theorem mem_iff_toNat_mem_map (c : Char) (l : List Char) : c ∈ l ↔ c.toNat ∈ l.map Char.toNat :=
  (List.mem_map_of_injective fun _ _ h => Char.toNat_inj.mp h).symm

theorem mem_hexDigits_iff (c : Char) :
    c ∈ hexDigits ↔ (48 ≤ c.toNat ∧ c.toNat ≤ 57) ∨ (65 ≤ c.toNat ∧ c.toNat ≤ 70) := by
  have hcodes : hexDigits.map Char.toNat = List.range' 48 10 ++ List.range' 65 6 := by decide
  rw [mem_iff_toNat_mem_map, hcodes, List.mem_append, List.mem_range'_1, List.mem_range'_1]
  omega

theorem mem_lowerHexDigits_iff (c : Char) : c ∈ lowerHexDigits ↔ 97 ≤ c.toNat ∧ c.toNat ≤ 102 := by
  have hcodes : lowerHexDigits.map Char.toNat = List.range' 97 6 := by decide
  rw [mem_iff_toNat_mem_map, hcodes, List.mem_range'_1]
  omega

/-- A character outside both lists of digits has no value (decision D7). -/
theorem hexValue_eq_none {c : Char} (hu : c ∉ hexDigits) (hl : c ∉ lowerHexDigits) : hexValue c = none := by
  rw [mem_hexDigits_iff, not_or] at hu
  obtain ⟨hdec, hupper⟩ := hu
  rw [hexValue, if_neg hdec, if_neg hupper, if_neg (mt (mem_lowerHexDigits_iff c).mpr hl)]

/-- A digit's value is below sixteen. -/
theorem hexValue_lt {c : Char} {d : Nat} (h : hexValue c = some d) : d < 16 := by
  unfold hexValue at h
  split_ifs at h with hdec hupper hlower <;> cases h <;> omega

/-- Every value left of a line is a digit's. -/
theorem lt_of_mem_filterMap_hexValue {l : List Char} {d : Nat} (h : d ∈ l.filterMap hexValue) : d < 16 := by
  obtain ⟨c, -, hc⟩ := List.mem_filterMap.mp h
  exact hexValue_lt hc

/-- The conversion sees only the digits of a line. -/
theorem kbdReference_congr {l m : List Char} (h : l.filterMap hexValue = m.filterMap hexValue) :
    kbdReference l = kbdReference m := by
  rw [kbdReference, kbdReference, h]

theorem kbdReference_of_no_digit {l : List Char} (h : ∀ c ∈ l, hexValue c = none) : kbdReference l = 0 := by
  rw [kbdReference, List.filterMap_eq_nil_iff.mpr h]

theorem kbdReference_of_one_digit {l : List Char} {d : Nat} (h : l.filterMap hexValue = [d]) :
    (kbdReference l).toNat = d := by
  have hd : d < 16 := lt_of_mem_filterMap_hexValue (l := l) (by simp [h])
  rw [kbdReference, h]
  exact Nat.mod_eq_of_lt (by omega)

theorem kbdReference_of_two_digits {l : List Char} {d e : Nat} {ds : List Nat}
    (h : l.filterMap hexValue = d :: e :: ds) : (kbdReference l).toNat = d * 16 + e := by
  have hd : d < 16 := lt_of_mem_filterMap_hexValue (l := l) (by simp [h])
  have he : e < 16 := lt_of_mem_filterMap_hexValue (l := l) (by simp [h])
  rw [kbdReference, h]
  exact Nat.mod_eq_of_lt (by omega)

/-- A character that is no digit does not count, wherever it stands. -/
theorem kbdReference_append_cons {c : Char} (hc : hexValue c = none) (l m : List Char) :
    kbdReference (l ++ c :: m) = kbdReference (l ++ m) :=
  kbdReference_congr (by rw [List.filterMap_append, List.filterMap_append, List.filterMap_cons_none hc])

/-- Taking a scripted answer shortens the script and touches no other draw (R160). -/
theorem State.tookKey_draws_of_scripted {s : State} {k : Byte} {ks : List Byte} (h : s.draws.keys = k :: ks) :
    s.tookKey.draws = { s.draws with keys := ks } := by
  simp [State.tookKey, h]

@[simp] theorem State.answerLine_draws (s : State) (l : List Char) :
    (s.answerLine l).draws = { s.draws with keys := s.draws.keys ++ [kbdReference l] } := rfl

/-- READ_KEYBOARD stores the value of the line that was scripted, and leaves the draws as before the line (R160). -/
theorem exec_readKeyboard_answerLine {s : State} (h : s.draws.keys = []) (rx : Fin 8) (l : List Char) :
    ∃ t, exec (.readKeyboard (regField rx)) (s.answerLine l) = .next t ∧
      t.reg rx = ((kbdReference l).toNat : Int) ∧ t.draws = s.draws := by
  have hkeys : ((s.answerLine l).emit .prompt).draws.keys = [kbdReference l] := by simp [h]
  obtain ⟨hnext, -, -⟩ := State.tookKey_of_scripted hkeys
  rw [State.emit_nextKey] at hnext
  refine ⟨_, exec_readKeyboard _ rx, by simp [zext, hnext], ?_⟩
  rw [State.moveTo_draws, State.setReg_draws, State.tookKey_draws_of_scripted hkeys, State.emit_draws,
    State.answerLine_draws, ← h]

end Sys2Proof.Machine
end

section
/-! PROOFS. The statement about keyboard lines (spec/43_io.md). -/

namespace Sys2Proof.Proofs

open Sys2Proof.Machine Sys2Proof.Safety

/-- Settles O21: only the digits of a line count, and the line's value is the next answer. -/
theorem keyboardLinesConvert : Obligations.KeyboardLinesConvert :=
  ⟨by decide, by decide, fun _ => hexValue_eq_none, fun _ _ => kbdReference_of_one_digit,
    fun _ _ _ _ => kbdReference_of_two_digits, fun l m _ hc => kbdReference_append_cons hc l m,
    fun _ => kbdReference_of_no_digit, fun _ rx l hs => exec_readKeyboard_answerLine hs rx l⟩

end Sys2Proof.Proofs
end

section
/-! SUPPORT. The Timer's turn in each tick mode, what a tick counts, and the host's turn (R215, R216, R219). -/

namespace Sys2Proof.Machine

open Sys2Proof.Safety

section
variable {s t u : State} {l : Byte}

/-! ### Counting -/

/-- From `s` to `t` one tick is counted: modulo 60, with a render exactly when the count wraps, and the Timer neither
stopped nor started (R215, decision D11). -/
structure CountsTick (s t : State) : Prop where
  count : t.tickCount.val = (s.tickCount.val + 1) % 60
  out : t.out = s.out ++ if s.tickCount.val = 59 then [.render s.cells] else []
  timerOn : t.timerOn = s.timerOn

/-- Counting depends on the count, the trace, the cells and the switch alone. -/
theorem CountsTick.congr (h : CountsTick u t) (hn : u.tickCount = s.tickCount) (ho : u.out = s.out)
    (hc : u.cells = s.cells) (hon : u.timerOn = s.timerOn) : CountsTick s t :=
  ⟨hn ▸ h.count, by rw [h.out, hn, ho, hc], h.timerOn.trans hon⟩

theorem CountsTick.of_tookTurn (h : CountsTick s.tookTurn t) : CountsTick s t := by
  apply h.congr <;> simp

theorem State.countTick_counts (s : State) : CountsTick s s.countTick := by
  have hval : (s.tickCount + 1).val = (s.tickCount.val + 1) % 60 := Fin.val_add _ _
  have hwrap : s.tickCount + 1 = 0 ↔ s.tickCount.val = 59 := by
    rw [Fin.ext_iff, hval, Fin.val_zero]
    omega
  unfold State.countTick
  by_cases h : s.tickCount.val = 59
  · rw [if_pos (hwrap.mpr h)]
    exact ⟨hval, by simp [h], rfl⟩
  · rw [if_neg (mt hwrap.mp h)]
    exact ⟨hval, by simp [h], rfl⟩

theorem State.tick_counts (s : State) : CountsTick s s.tick :=
  (s.setT (decrementT s.T)).countTick_counts.congr rfl rfl rfl rfl

theorem State.tickWrite_counts (s : State) (l : Byte) : CountsTick s (s.tickWrite l) := by
  apply (State.countTick_counts _).congr <;> split <;> rfl

/-! ### T and the latch -/

theorem State.tick_tickLatch (s : State) : s.tick.tickLatch = s.tickLatch := countTick_tickLatch _

theorem State.tickWrite_tickLatch (s : State) (l : Byte) : (s.tickWrite l).tickLatch = none := countTick_tickLatch _

/-- TickWrite stores the latched value less one, or keeps T when that value is 0 (R216). -/
theorem State.tickWrite_T (s : State) (l : Byte) : (s.tickWrite l).T = if l = 0 then s.T else l - 1 := by
  rw [State.tickWrite, State.countTick_T, State.setTickLatch_T]
  split <;> rfl

/-! ### The Timer's turn -/

theorem step_timer (hn : s.nextTurn = .timer) : step s = .next (timerStep s.tookTurn) := by rw [step, hn]

theorem timerStep_atomic (ha : s.cfg.timerTickAtomic = true) (hon : s.timerOn = true) : timerStep s = s.tick := by
  simp [timerStep, ha, hon]

/-- With no tick pending TickRead latches T (R216). -/
theorem timerStep_read (ha : s.cfg.timerTickAtomic = false) (hon : s.timerOn = true) (hl : s.tickLatch = none) :
    timerStep s = s.setTickLatch (some s.T) := by
  simp [timerStep, State.tickRead, ha, hon, hl]

/-- A latched TickWrite completes whether the Timer is on or off (R219, log entry 11). -/
theorem timerStep_write (ha : s.cfg.timerTickAtomic = false) (hl : s.tickLatch = some l) :
    timerStep s = s.tickWrite l := by
  simp [timerStep, ha, hl]

/-- A stopped Timer has no step, but for the second half of a split tick (R215, R216, log entry 2). -/
theorem timerStep_stopped (hoff : s.timerOn = false) (h : s.cfg.timerTickAtomic = true ∨ s.tickLatch = none) :
    timerStep s = s := by
  rcases h with ha | hl
  · simp [timerStep, hoff, ha]
  · simp [timerStep, hoff, hl]

/-- Under atomic ticks the Timer's turn does not raise T (R218). -/
theorem timerStep_T_le (ha : s.cfg.timerTickAtomic = true) : (timerStep s).T.toNat ≤ s.T.toNat := by
  cases hon : s.timerOn with
  | true =>
    rw [timerStep_atomic ha hon, s.tick_T_toNat]
    exact Nat.sub_le _ _
  | false => rw [timerStep_stopped hon (.inl ha)]

/-! ### The host's turn -/

theorem step_host {c : HostCommand} (hn : s.nextTurn = .host c) : step s = .next (hostStep c s.tookTurn) := by
  rw [step, hn]

/-- A timer command sets the switch to what it asks for, and does no more (R219). -/
theorem hostStep_eq (c : HostCommand) (s : State) : hostStep c s = s.setTimerOn (decide (c = .timerStart)) := by
  cases c <;> rfl

/-! ### Frames -/

theorem setTickLatch_frame (s : State) (b : Option Byte) : Frame [.timer] s (s.setTickLatch b) := fun p hp => by
  cases p <;> simp_all [Part.Same]

theorem setTimerOn_frame (s : State) (b : Bool) : Frame [.timer] s (s.setTimerOn b) := fun p hp => by
  cases p <;> simp_all [Part.Same]

/-- After a turn is taken, what changes are the draws and the parts its agent changes. -/
theorem frame_of_tookTurn {ps : List Part} (h : Frame ps s.tookTurn t) : Frame (.draws :: ps) s t :=
  (tookTurn_frame s).append h

/-- A turn of the Timer changes T, the Timer's own state and the draws. -/
theorem frame_of_tookTurn_agree (h : AgreeButTimer s.tookTurn t) : Frame [.countdown, .timer, .draws] s t :=
  (frame_of_tookTurn h.frame).mono (by simp)

end

/-! ### Ticks in a row -/

/-- The renders of `n + 1` counted ticks: that of the first, if it wraps the count, and those of the `n` others. -/
theorem wraps_succ {c : Nat} (hc : c < 60) (n : Nat) (e : Event) :
    (if c = 59 then [e] else []) ++ List.replicate (((c + 1) % 60 + n) / 60) e =
      List.replicate ((c + (n + 1)) / 60) e := by
  split
  · have hdiv : (c + (n + 1)) / 60 = ((c + 1) % 60 + n) / 60 + 1 := by omega
    rw [hdiv, List.replicate_succ]
    rfl
  · have hdiv : (c + (n + 1)) / 60 = ((c + 1) % 60 + n) / 60 := by omega
    rw [hdiv, List.nil_append]

theorem ticks_tickCount (n : Nat) : ∀ s : State, (ticks n s).tickCount.val = (s.tickCount.val + n) % 60 := by
  induction n with
  | zero => exact fun s => (Nat.mod_eq_of_lt s.tickCount.isLt).symm
  | succ n ih =>
    intro s
    rw [ticks, ih, s.tick_counts.count]
    omega

/-- The count having wrapped `k` times, `k` renders were emitted, all of the same display (decision D11). -/
theorem ticks_out (n : Nat) : ∀ s : State,
    (ticks n s).out = s.out ++ List.replicate ((s.tickCount.val + n) / 60) (.render s.cells) := by
  induction n with
  | zero =>
    intro s
    have hdiv : (s.tickCount.val + 0) / 60 = 0 := Nat.div_eq_of_lt s.tickCount.isLt
    rw [hdiv]
    exact (List.append_nil s.out).symm
  | succ n ih =>
    intro s
    have hcells : s.tick.cells = s.cells := by simp only [State.cells, (agreeButTimer_tick s).display]
    rw [ticks, ih, s.tick_counts.out, s.tick_counts.count, hcells, List.append_assoc,
      wraps_succ s.tickCount.isLt]

end Sys2Proof.Machine
end

section
/-! SUPPORT. The Engine's turn: how it ends in a fatal fault, and that only SET_T writes T (R200, R218). -/

namespace Sys2Proof.Machine

open Sys2Proof.Safety

section
variable {s t : State} {f : FatalFault}

/-- An instruction that ends in a fatal fault has done nothing but take it (R200). -/
theorem exec_fault {i : Instr} (h : exec i s = .next t) (hs : s.run = .running) (ht : t.run = .halted (.fault f)) :
    t = s.takeFault f := by
  rcases exec_ends h with ⟨g, rfl⟩ | ⟨-, rfl⟩ | ⟨a, evs, -, hc, -⟩
  · cases ht
    rfl
  · cases ht
  · by_cases ha : a < 4096
    · simp [(hc.goesOn ha).1, hs] at ht
    · simp [(hc.exhausts (by omega)).1] at ht

/-- The Engine takes a fatal fault at the fetch, or after the log entry of the instruction that faults (R200, R226). -/
theorem engineStep_fault (h : engineStep s = .next t) (hs : s.run = .running) (ht : t.run = .halted (.fault f)) :
    t = s.takeFault f ∨ t = (s.emit (.log s.pc s.fetch)).takeFault f := by
  rcases engineStep_cases h with ⟨hr, -⟩ | ⟨-, -, rfl⟩ | ⟨-, -, -, rfl⟩ | ⟨-, -, i, -, he⟩
  · exact absurd hs hr
  · cases ht
  · cases ht
    exact .inl rfl
  · exact .inr (exec_fault he hs ht)

/-- A step that takes a fatal fault is the Engine's: the other agents leave the run state alone. -/
theorem engineStep_of_step_fault (h : step s = .next t) (hs : s.run = .running) (ht : t.run = .halted (.fault f)) :
    engineStep s.tookTurn = .next t := by
  rcases step_cases h with ⟨-, he⟩ | ⟨-, rfl⟩ | ⟨c, -, rfl⟩
  · exact he
  · simp [(agreeButTimer_timerStep _).run, hs] at ht
  · simp [(agreeButTimer_hostStep c _).run, hs] at ht

/-- The Engine's step keeps T unless it executes SET_T. -/
theorem engineStep_T (h : engineStep s = .next t) (hi : ∀ b, decodeStoreWord s.fetch ≠ .ok (.setT b)) :
    t.T = s.T := by
  rcases engineStep_cases h with ⟨-, rfl⟩ | ⟨-, -, rfl⟩ | ⟨-, -, -, rfl⟩ | ⟨-, -, i, hd, he⟩
  · rfl
  · rfl
  · rfl
  · have hnot : .countdown ∉ written i := by
      rw [countdown_mem_written]
      rintro ⟨b, rfl⟩
      exact hi b hd
    exact exec_frame he .countdown hnot

/-- Under atomic ticks no step but SET_T's raises T (R218). -/
theorem step_T_le (ha : s.cfg.timerTickAtomic = true) (h : step s = .next t)
    (hi : ∀ b, s.nextTurn = .engine → decodeStoreWord s.fetch ≠ .ok (.setT b)) : t.T.toNat ≤ s.T.toNat := by
  rw [← s.tookTurn_T]
  rcases step_cases h with ⟨hn, he⟩ | ⟨-, rfl⟩ | ⟨c, -, rfl⟩
  · have hi' : ∀ b, decodeStoreWord s.tookTurn.fetch ≠ .ok (.setT b) := fun b => by
      rw [State.tookTurn_fetch]
      exact hi b hn
    rw [engineStep_T he hi']
  · exact timerStep_T_le (by rw [State.tookTurn_cfg, ha])
  · rw [hostStep_eq, State.setTimerOn_T]

end

end Sys2Proof.Machine
end

section
/-! PROOFS. The statements about faults, the Timer and the host (spec/60_exceptions.md). -/

namespace Sys2Proof.Proofs

open Sys2Proof.Machine Sys2Proof.Safety

/-! ### Faults -/

/-- Settles O29: the faulting step is the turn taken, at most the log entry, and the fault taken. -/
theorem faultsArePrecise : Obligations.FaultsArePrecise := by
  intro s t f hs h ht
  rcases engineStep_fault (engineStep_of_step_fault h hs ht) (s.tookTurn_run.trans hs) ht with rfl | rfl
  · exact ⟨[], .inl rfl, by simp, by simp [State.takeFault_out],
      frame_of_tookTurn (s.tookTurn.takeFault_taken f).frame⟩
  · refine ⟨[.log s.pc (s.progRead s.pc)], .inr rfl, by simp, by simp [State.takeFault_out, State.fetch],
      frame_of_tookTurn ?_⟩
    exact (emit_frame _ _).trans (State.takeFault_taken _ f).frame

/-- Settles O33: the Timer and the host always move, and of the Engine's step only the width guard can fault. -/
theorem everyStepAnswersANextState : Obligations.EveryStepAnswersANextState := by
  intro s
  cases hn : s.nextTurn with
  | timer => exact .inl ⟨_, step_timer hn⟩
  | host c => exact .inl ⟨_, step_host hn⟩
  | engine =>
    have hstep : step s = engineStep s.tookTurn := by rw [step, hn]
    rw [hstep]
    rcases engineStep_spec s.tookTurn with ⟨-, he⟩ | ⟨t, hr, -, -, ⟨-, -, he⟩ | ⟨-, hw, he⟩⟩
    · exact .inl ⟨_, he⟩
    · exact .inl ⟨t, he⟩
    · rw [State.tookTurn_cfg] at hw
      exact .inr ⟨Option.ne_none_iff_exists'.mp hw, rfl, s.tookTurn_run ▸ hr, he⟩

/-! ### Ticks -/

/-- Settles O51: the turn is a tick of the state after the turn is taken. -/
theorem atomicTick : Obligations.AtomicTick := by
  intro s hn ha hon
  have hstep : step s = .next s.tookTurn.tick := by
    rw [step_timer hn, timerStep_atomic (by simpa using ha) (by simpa using hon)]
  have hcount := s.tookTurn.tick_counts.of_tookTurn
  have hag := agreeButTimer_tick s.tookTurn
  exact ⟨_, hstep, by simp [State.tick_T_toNat], hcount.count, hcount.out, hag.pc.trans s.tookTurn_pc,
    hag.run.trans s.tookTurn_run, hcount.timerOn, by simp [State.tick_tickLatch], hag.draws,
    frame_of_tookTurn_agree hag⟩

/-- Settles O52: TickRead writes the latch alone, and TickWrite counts as an atomic tick does. -/
theorem splitTick : Obligations.SplitTick := by
  refine ⟨fun s hn ha hon hl => ?_, fun s l hn ha hl => ?_⟩
  · have hstep : step s = .next (s.tookTurn.setTickLatch (some s.tookTurn.T)) := by
      rw [step_timer hn, timerStep_read (by simpa using ha) (by simpa using hon) (by simpa using hl)]
    exact ⟨_, hstep, by simp, by simp, by simp [hon], ⟨by simp, by simp, by simp⟩, rfl,
      (frame_of_tookTurn (setTickLatch_frame _ _)).mono (by simp)⟩
  · have hstep : step s = .next (s.tookTurn.tickWrite l) := by
      rw [step_timer hn, timerStep_write (by simpa using ha) (by simpa using hl)]
    have hcount := (s.tookTurn.tickWrite_counts l).of_tookTurn
    have hag := agreeButTimer_tickWrite s.tookTurn l
    have hT : (s.tookTurn.tickWrite l).T.toNat = if l = 0 then s.T.toNat else l.toNat - 1 := by
      rw [State.tickWrite_T, s.tookTurn_T]
      split
      · rfl
      · bv_omega
    exact ⟨_, hstep, State.tickWrite_tickLatch _ l, hT, hcount.count, hcount.timerOn, hcount.out,
      hag.pc.trans s.tookTurn_pc, hag.run.trans s.tookTurn_run, hag.draws, frame_of_tookTurn_agree hag⟩

/-- Settles O53: SET_T leaves the latch, and TickWrite stores the latched value less one. -/
theorem splitTickLosesASetT : Obligations.SplitTickLosesASetT := by
  intro s t imm ha hon hl hT h
  rw [timerStep_read ha hon hl, exec_setT] at h
  cases h
  refine ⟨by simp, ?_⟩
  rw [timerStep_write (l := s.T) (by simpa using ha) (by simp), State.tickWrite_T, if_neg hT]

/-- Settles O54: a byte no greater than 0 is 0. -/
theorem countdownIsMonotone : Obligations.CountdownIsMonotone := by
  refine ⟨fun s t ha h hi => ?_, fun s => ?_⟩
  · have hle : t.T.toNat ≤ s.T.toNat := step_T_le ha h hi
    refine ⟨hle, fun h0 => BitVec.eq_of_toNat_eq ?_⟩
    rw [h0] at hle
    exact Nat.le_zero.mp hle
  · have hag := agreeButTimer_tick s
    exact ⟨s.tick_T_toNat ▸ Nat.sub_le _ _, hag.pc, hag.run, hag.frame⟩

/-- Settles O55: a command writes the switch alone, to a value that depends on the command alone. -/
theorem timerStopAndStart : Obligations.TimerStopAndStart := by
  refine ⟨fun s c hn => ?_, fun s c => ?_, fun s => timerStep_stopped⟩
  · have hstep : step s = .next (s.tookTurn.setTimerOn (decide (c = .timerStart))) := by rw [step_host hn, hostStep_eq]
    exact ⟨_, hstep, rfl, by simp, by simp, ⟨by simp, by simp, by simp⟩, rfl,
      (frame_of_tookTurn (setTimerOn_frame _ _)).mono (by simp)⟩
  · rw [hostStep_eq, hostStep_eq]
    rfl

/-- Settles O56, each part by induction on the number of ticks. -/
theorem manyTicks : Obligations.ManyTicks :=
  fun n s => ⟨ticks_T_toNat n s, ticks_tickCount n s, ticks_out n s⟩

end Sys2Proof.Proofs
end

section
/-! SUPPORT. The load: what keeps through it, and what each slot reads as after it (R242, decision D19). -/

namespace Sys2Proof.Machine

/-- What the write of a pair keeps, at every slot the load reaches, the load keeps. -/
theorem loadFrom_keeps {P : Memory → Prop} (k : Nat) (b : List Byte) (m : Memory)
    (hw : ∀ m i hi lo, k ≤ i → i < k + b.length / 2 → i ≤ 4095 → P m → P (Memory.write 0 m i (bytePair hi lo)))
    (h : P m) : P (loadFrom k b m) := by
  induction k, b, m using loadFrom.induct with
  | case1 k hi lo rest m ih =>
    have hlen : (hi :: lo :: rest).length / 2 = rest.length / 2 + 1 := Nat.add_div_right _ Nat.two_pos
    rw [hlen] at hw
    refine ih (fun m i hi lo h0 h1 => hw m i hi lo (by omega) (by omega)) ?_
    split
    · exact hw m k hi lo le_rfl (by omega) ‹_› h
    · exact h
  | case2 b k m hb => rwa [loadFrom.eq_2 k b m hb]

/-- A slot below the first one, or past the last whole pair's, keeps its word. -/
theorem loadFrom_read_outside {k a : Nat} {b : List Byte} (h : a < k ∨ k + b.length / 2 ≤ a) (m : Memory) :
    Memory.read 0 (loadFrom k b m) a = Memory.read 0 m a := by
  refine loadFrom_keeps (P := fun n => Memory.read 0 n a = Memory.read 0 m a) k b m
    (fun n i hi lo h0 h1 _ hn => ?_) rfl
  rw [Memory.read_write, if_neg (by omega), hn]

/-- The slot of a whole pair reads as the pair: the pairs after it have higher slots. -/
theorem loadFrom_read_pair {i k : Nat} {b : List Byte} {hi lo : Byte} (hhi : b[2 * i]? = some hi)
    (hlo : b[2 * i + 1]? = some lo) (hk : k + i ≤ 4095) (m : Memory) :
    Memory.read 0 (loadFrom k b m) (k + i) = bytePair hi lo := by
  induction k, b, m using loadFrom.induct generalizing i with
  | case1 k x y rest m ih =>
    rw [loadFrom]
    cases i with
    | zero =>
      obtain ⟨rfl, rfl⟩ : x = hi ∧ y = lo := by simpa using And.intro hhi hlo
      rw [loadFrom_read_outside (.inl (by omega)), if_pos (by omega), Memory.read_write, if_pos (by omega)]
    | succ i =>
      rw [← ih (i := i) hhi hlo (by omega), Nat.add_assoc, Nat.add_comm 1]
  | case2 b k m hb =>
    match b with
    | [] | [_] => simp at hlo
    | x :: y :: rest => exact absurd rfl (hb x y rest)

theorem State.progRead_slot (s : State) {k : Nat} (hk : k ≤ 4095) : s.progRead (k : Int) = Memory.read 0 s.prog k :=
  if_pos (by omega)

theorem State.load_progRead_pair (s : State) {b : List Byte} {k : Nat} {hi lo : Byte} (hhi : b[2 * k]? = some hi)
    (hlo : b[2 * k + 1]? = some lo) (hk : k ≤ 4095) : (s.load b).progRead (k : Int) = bytePair hi lo := by
  rw [State.progRead_slot _ hk, ← Nat.zero_add k]
  exact loadFrom_read_pair hhi hlo (by omega) s.prog

theorem State.load_progRead_past (s : State) {b : List Byte} {k : Nat} (h : b.length / 2 ≤ k) :
    (s.load b).progRead (k : Int) = s.progRead (k : Int) := by
  by_cases hk : k ≤ 4095
  · rw [State.progRead_slot _ hk, State.progRead_slot _ hk]
    exact loadFrom_read_outside (.inr (by omega)) s.prog
  · rw [State.progRead_outside _ (by omega), State.progRead_outside _ (by omega)]

theorem bytePair_bounds (hi lo : Byte) : 0 ≤ bytePair hi lo ∧ bytePair hi lo ≤ 0xFFFF := by
  unfold bytePair
  omega

end Sys2Proof.Machine
end

section
/-! SUPPORT. What the reset state reads as (R240). -/

namespace Sys2Proof.Machine

@[simp] theorem State.reset_reg (k : Fin 8) : State.reset.reg k = 0 := by
  fin_cases k <;> rfl

@[simp] theorem State.reset_progRead (a : Int) : State.reset.progRead a = 0 := ite_self _

@[simp] theorem State.reset_dataRead (a : Int) : State.reset.dataRead a = 0 := ite_self _

@[simp] theorem State.reset_cells : State.reset.cells = List.replicate 64 32 := rfl

theorem State.eq_of_mem_reset_cells {v : Int} (h : v ∈ State.reset.cells) : v = 32 := by
  rw [State.reset_cells] at h
  exact List.eq_of_mem_replicate h

end Sys2Proof.Machine
end

section
/-! SUPPORT. The invariant's clauses at reset and through the load (R240, R242). -/

namespace Sys2Proof.Safety

open Sys2Proof.Machine

/-- At reset, with any configuration set, the memories list nothing and no tick is latched. -/
theorem memoriesFit_reset_setCfg (c : CoreConfig) : MemoriesFit (State.reset.setCfg c) where
  prog := rfl
  data := rfl
  display := rfl
  codes v hv := by
    obtain rfl : v = 32 := State.eq_of_mem_reset_cells hv
    decide
  words _ a := by simp
  latch _ := rfl

/-- At reset the Engine runs at slot 0, whatever is loaded. -/
theorem pcFits_session (c : CoreConfig) (b : List Byte) : PcFits (session c b) := Nat.zero_le 4095

/-- A 16-bit word placed in a slot of the program store keeps the clauses. -/
theorem MemoriesFit.setProg_write {s : State} (h : MemoriesFit s) {k : Nat} (hk : k ≤ 4095) {v : Int} (h0 : 0 ≤ v)
    (hv : v ≤ 0xFFFF) : MemoriesFit (s.setProg (Memory.write 0 s.prog k v)) where
  prog := Memory.wf_write v h.prog (by omega)
  data := h.data
  display := h.display
  codes := h.codes
  words hrom a := by
    have hread := s.setProg_write_read (x := (k : Int)) (by omega) (by omega) v a
    rw [Int.toNat_natCast] at hread
    rw [hread]
    split
    · exact ⟨h0, hv⟩
    · exact h.words hrom a
  latch := h.latch

theorem MemoriesFit.load {s : State} (h : MemoriesFit s) (b : List Byte) : MemoriesFit (s.load b) :=
  loadFrom_keeps (P := fun m => MemoriesFit (s.setProg m)) 0 b s.prog
    (fun _ _ hi lo _ _ hk hm => hm.setProg_write hk (bytePair_bounds hi lo).1 (bytePair_bounds hi lo).2) h

end Sys2Proof.Safety
end

section
/-! PROOFS. The statements about reset, the load and the start of a session (spec/70_reset_and_hazards.md). -/

namespace Sys2Proof.Proofs

open Sys2Proof.Machine Sys2Proof.Safety

/-- Settles O37: the reset memories list nothing, each loaded word has 16 bits, and the load leaves pc at 0. -/
theorem sessionsMeetTheInvariant : Obligations.SessionsMeetTheInvariant :=
  fun c b => ((memoriesFit_reset_setCfg c).load b).inv (pcFits_session c b)

/-- Settles O48: the load has no condition on the flag and writes the program store alone. -/
theorem loadIsBigEndianPairs : Obligations.LoadIsBigEndianPairs :=
  fun s _ => ⟨fun _ _ _ hhi hlo hk => s.load_progRead_pair hhi hlo hk, fun _ hk => s.load_progRead_past hk,
    ⟨rfl, rfl, rfl⟩, setProg_frame s _⟩

/-- Settles O36: reset is the session of its own configuration with no program. -/
theorem resetMeetsTheInvariant : Obligations.ResetMeetsTheInvariant :=
  sessionsMeetTheInvariant State.reset.cfg []

/-- Settles O50: the empty memories read as 0 in the stores and as 32 in the display. -/
theorem resetValues : Obligations.ResetValues :=
  ⟨State.reset_reg, rfl, rfl, rfl, rfl, State.reset_progRead, State.reset_dataRead,
    fun _ => State.eq_of_mem_reset_cells, rfl, rfl, rfl, rfl, rfl, rfl, rfl⟩

end Sys2Proof.Proofs
end
